-- ==== Sys2Proof/Word.lean ====
section
/-! DEFINITION. The word and byte types (00_scope R9: every host-visible register is 32 bits; 20_memory R71: a
buffer byte is 8 bits). -/

namespace Sys2Proof

/-- A host-visible register, a command word, an operand word (00_scope R9, 30_encoding R90). -/
abbrev Word := BitVec 32

/-- One byte of a buffer, one octet of the wire (20_memory R71, R73). -/
abbrev Byte := BitVec 8

end Sys2Proof
end

