-- ==== Sys2Proof/Syntax.lean ====
section
/-! DEFINITION. The commands: one constructor per row of spec/opcode_table.json (30_encoding R91), with the operands
R91 names at the widths it gives them. -/

namespace Sys2Proof

/-- A command with its operands. Every operand is the bits the table names (30_encoding R94); the one operand with a
value that is no command is SET_BSR's `fmt` (3 is illegal, R93), which WellFormed checks. -/
inductive Instr where
  | initTx (padPolicy : Bool) (totalLength : Word)                    -- R162
  | initRx (totalLength : Word)                                       -- R240
  | append                                                            -- R163
  | removeLast                                                        -- R164
  | serialize                                                         -- R170
  | parse                                                             -- R241
  | iterNext                                                          -- R250
  | setSdu (lcid : BitVec 5) (requestedBytes : Word)                  -- R165
  | setBsr (fmt : BitVec 2) (occ0 occ1 occ2 occ3 : Word)              -- R202
  | setPhr (db : BitVec 16)                                           -- R205, signed (R94)
  | setTa (ta : BitVec 6)                                             -- R206
  | setCrid (crid : BitVec 48)                                        -- R207
  | setCrnti (rnti : BitVec 16)                                       -- R208
  | setScell (bitmap : Word)                                          -- R209
  | getSdu                                                            -- R252
  | getBsr                                                            -- R212
  | getPhr                                                            -- R213
  | getTa                                                             -- R214
  | getCrid                                                           -- R215
  | getCrnti                                                          -- R216
  | getScell                                                          -- R217
  | getMchSched (k : BitVec 16)                                       -- R218
  | rarInitTx (totalLength : Word)                                    -- R272
  | rarInitRx (totalLength : Word)                                    -- R280
  | rarAppend                                                         -- R273
  | rarRemoveLast                                                     -- R274
  | rarSetBackoff (bi : BitVec 4)                                     -- R275
  | rarSetGrant (rapid : BitVec 6) (ta : BitVec 11) (grant : BitVec 20) (tc : BitVec 16) -- R276
  | rarSerialize                                                      -- R277
  | rarParse                                                          -- R281
  | rarIterNext                                                       -- R283
  | rarGetGrant                                                       -- R284
  | rarGetBackoff                                                     -- R285
deriving DecidableEq, Repr

end Sys2Proof
end

