-- ==== Sys2Proof/WellFormed.lean ====
section
/-! DEFINITION. Which instruction terms are commands of 30_encoding R91. -/

namespace Sys2Proof

/-- Every operand has its exact width as its type, so the one check is SET_BSR's format: 0 Short, 1 Long, 2 Truncated
(30_encoding R91); fmt = 3 is illegal (R93). -/
def Instr.wellFormed : Instr → Bool
  | .setBsr fmt _ _ _ _ => fmt != 3#2
  | .initTx _ _ | .initRx _ | .append | .removeLast | .serialize | .parse | .iterNext | .setSdu _ _
  | .setPhr _ | .setTa _ | .setCrid _ | .setCrnti _ | .setScell _
  | .getSdu | .getBsr | .getPhr | .getTa | .getCrid | .getCrnti | .getScell | .getMchSched _
  | .rarInitTx _ | .rarInitRx _ | .rarAppend | .rarRemoveLast | .rarSetBackoff _ | .rarSetGrant _ _ _ _
  | .rarSerialize | .rarParse | .rarIterNext | .rarGetGrant | .rarGetBackoff => true

/-- The same, as a proposition. -/
abbrev WellFormed (i : Instr) : Prop := i.wellFormed = true

end Sys2Proof
end

