-- ==== Sys2Proof/Decode.lean ====
section
/-! DEFINITION. The command decoder, total on any word list, and after it the encoder (30_encoding part A). A command
is a list of 32-bit words: word 0, then its NW operand words (R90). -/

namespace Sys2Proof

/-! ### Fields of word 0 (R90) and operand assembly (R94) -/

/-- OPC, bits 31:24. -/
def opcField (w : Word) : BitVec 8 := w.extractLsb' 24 8
/-- A, bits 23:16. -/
def aField (w : Word) : BitVec 8 := w.extractLsb' 16 8
/-- B, bits 15:0. -/
def bField (w : Word) : BitVec 16 := w.extractLsb' 0 16

/-- Word 0 from its three fields (R90). -/
def cmdWord (opc a : BitVec 8) (b : BitVec 16) : Word := opc ++ a ++ b

/-! ### The opcode map (R91) -/

/-- The commands by name alone, without operands. -/
inductive Op where
  | initTx | initRx | append | removeLast | serialize | parse | iterNext
  | setSdu | setBsr | setPhr | setTa | setCrid | setCrnti | setScell
  | getSdu | getBsr | getPhr | getTa | getCrid | getCrnti | getScell | getMchSched
  | rarInitTx | rarInitRx | rarAppend | rarRemoveLast | rarSetBackoff | rarSetGrant
  | rarSerialize | rarParse | rarIterNext | rarGetGrant | rarGetBackoff
deriving DecidableEq, Repr

/-- One row of R91's map: opcode, number of operand words, and the "rsv" bits that must be 0, as masks of word 0, W1,
W2, ... in order (a word with no mask has no reserved bit). -/
structure OpRow where
  opc : BitVec 8
  op  : Op
  nw  : Nat
  rsv : List Word
deriving DecidableEq, Repr

/-- Opcodes 0x01 to 0x16 of R91. -/
def opRowsSet : List OpRow :=
  [ ⟨0x01, .initTx,     1, [0x00FEFFFF]⟩,
    ⟨0x02, .initRx,     1, [0x00FFFFFF]⟩,
    ⟨0x03, .append,     0, [0x00FFFFFF]⟩,
    ⟨0x04, .removeLast, 0, [0x00FFFFFF]⟩,
    ⟨0x05, .serialize,  0, [0x00FFFFFF]⟩,
    ⟨0x06, .parse,      0, [0x00FFFFFF]⟩,
    ⟨0x07, .iterNext,   0, [0x00FFFFFF]⟩,
    ⟨0x10, .setSdu,     1, [0x00E0FFFF]⟩,
    ⟨0x11, .setBsr,     4, [0x00FCFFFF]⟩,
    ⟨0x12, .setPhr,     0, [0x00FF0000]⟩,
    ⟨0x13, .setTa,      0, [0x00C0FFFF]⟩,
    ⟨0x14, .setCrid,    1, [0x00FF0000]⟩,
    ⟨0x15, .setCrnti,   0, [0x00FF0000]⟩,
    ⟨0x16, .setScell,   1, [0x00FFFFFF]⟩ ]

/-- Opcodes 0x20 to 0x27 of R91. -/
def opRowsGet : List OpRow :=
  [ ⟨0x20, .getSdu,      0, [0x00FFFFFF]⟩,
    ⟨0x21, .getBsr,      0, [0x00FFFFFF]⟩,
    ⟨0x22, .getPhr,      0, [0x00FFFFFF]⟩,
    ⟨0x23, .getTa,       0, [0x00FFFFFF]⟩,
    ⟨0x24, .getCrid,     0, [0x00FFFFFF]⟩,
    ⟨0x25, .getCrnti,    0, [0x00FFFFFF]⟩,
    ⟨0x26, .getScell,    0, [0x00FFFFFF]⟩,
    ⟨0x27, .getMchSched, 0, [0x00FF0000]⟩ ]

/-- Opcodes 0x30 to 0x3A of R91. -/
def opRowsRar : List OpRow :=
  [ ⟨0x30, .rarInitTx,     1, [0x00FFFFFF]⟩,
    ⟨0x31, .rarInitRx,     1, [0x00FFFFFF]⟩,
    ⟨0x32, .rarAppend,     0, [0x00FFFFFF]⟩,
    ⟨0x33, .rarRemoveLast, 0, [0x00FFFFFF]⟩,
    ⟨0x34, .rarSetBackoff, 0, [0x00F0FFFF]⟩,
    ⟨0x35, .rarSetGrant,   2, [0x00C00000, 0xFFFFF800, 0xFFF00000]⟩,
    ⟨0x36, .rarSerialize,  0, [0x00FFFFFF]⟩,
    ⟨0x37, .rarParse,      0, [0x00FFFFFF]⟩,
    ⟨0x38, .rarIterNext,   0, [0x00FFFFFF]⟩,
    ⟨0x39, .rarGetGrant,   0, [0x00FFFFFF]⟩,
    ⟨0x3A, .rarGetBackoff, 0, [0x00FFFFFF]⟩ ]

/-- The opcode map of R91. Every opcode value not in it is unassigned (R92). -/
def opTable : List OpRow := opRowsSet ++ opRowsGet ++ opRowsRar

/-- The row of an opcode, none for an unassigned one (R92). -/
def opRow (opc : BitVec 8) : Option OpRow := opTable.find? fun r => r.opc == opc

/-- NW, the number of operand words that follow word 0; 0 for an unassigned opcode (R91, R92, R95). -/
def operandWords (w0 : Word) : Nat :=
  match opRow (opcField w0) with
  | some r => r.nw
  | none   => 0

/-! ### Decoding -/

/-- Why a word list is no legal command. -/
inductive IllegalReason where
  | noWord            -- the empty list: there is no word 0
  | unassignedOpcode  -- R92
  | wrongLength       -- not 1 + NW words; the command port never makes one (log 15)
  | reservedBit       -- R93: a nonzero "rsv" bit
  | bsrFormat         -- R93: SET_BSR with fmt = 3
deriving DecidableEq, Repr

/-- The decoder's answer. -/
inductive Decoded where
  | ok (i : Instr)
  | illegal (why : IllegalReason)
deriving DecidableEq, Repr

/-- Whether some word of a command has a bit that R91 marks "rsv". -/
def reservedBitSet (rsv words : List Word) : Bool :=
  (words.zip rsv).any fun p => p.1 &&& p.2 != 0#32

/-- The operands of a command from the bits R91 names, zero-extended, unscaled (R94); W1 .. W4 are `ops` in order. -/
def operandsOf (op : Op) (w0 : Word) (ops : List Word) : Instr :=
  let a := aField w0
  let b := bField w0
  let w := fun j => ops.getD j 0#32
  match op with
  | .initTx        => .initTx (a.getLsbD 0) (w 0)
  | .initRx        => .initRx (w 0)
  | .append        => .append
  | .removeLast    => .removeLast
  | .serialize     => .serialize
  | .parse         => .parse
  | .iterNext      => .iterNext
  | .setSdu        => .setSdu (a.extractLsb' 0 5) (w 0)
  | .setBsr        => .setBsr (a.extractLsb' 0 2) (w 0) (w 1) (w 2) (w 3)
  | .setPhr        => .setPhr b
  | .setTa         => .setTa (a.extractLsb' 0 6)
  | .setCrid       => .setCrid (b ++ w 0)
  | .setCrnti      => .setCrnti b
  | .setScell      => .setScell (w 0)
  | .getSdu        => .getSdu
  | .getBsr        => .getBsr
  | .getPhr        => .getPhr
  | .getTa         => .getTa
  | .getCrid       => .getCrid
  | .getCrnti      => .getCrnti
  | .getScell      => .getScell
  | .getMchSched   => .getMchSched b
  | .rarInitTx     => .rarInitTx (w 0)
  | .rarInitRx     => .rarInitRx (w 0)
  | .rarAppend     => .rarAppend
  | .rarRemoveLast => .rarRemoveLast
  | .rarSetBackoff => .rarSetBackoff (a.extractLsb' 0 4)
  | .rarSetGrant   => .rarSetGrant (a.extractLsb' 0 6) ((w 0).extractLsb' 0 11) ((w 1).extractLsb' 0 20) b
  | .rarSerialize  => .rarSerialize
  | .rarParse      => .rarParse
  | .rarIterNext   => .rarIterNext
  | .rarGetGrant   => .rarGetGrant
  | .rarGetBackoff => .rarGetBackoff

/-- The decoder. The order of the checks is 60_exceptions R303: unassigned opcode, then reserved bits and SET_BSR's
format. -/
def decode (words : List Word) : Decoded :=
  match words with
  | [] => .illegal .noWord
  | w0 :: ops =>
    match opRow (opcField w0) with
    | none => .illegal .unassignedOpcode
    | some r =>
      if ops.length ≠ r.nw then .illegal .wrongLength
      else if reservedBitSet r.rsv words then .illegal .reservedBit
      else
        let i := operandsOf r.op w0 ops
        if i.wellFormed then .ok i else .illegal .bsrFormat

/-! ### Encoding (R91, R94) -/

/-- The words of a command, written from R91's map. -/
def encode : Instr → List Word
  | .initTx pad total            => [cmdWord 0x01 (0#7 ++ BitVec.ofBool pad) 0, total]
  | .initRx total                => [cmdWord 0x02 0 0, total]
  | .append                      => [cmdWord 0x03 0 0]
  | .removeLast                  => [cmdWord 0x04 0 0]
  | .serialize                   => [cmdWord 0x05 0 0]
  | .parse                       => [cmdWord 0x06 0 0]
  | .iterNext                    => [cmdWord 0x07 0 0]
  | .setSdu lcid req             => [cmdWord 0x10 (0#3 ++ lcid) 0, req]
  | .setBsr fmt o0 o1 o2 o3      => [cmdWord 0x11 (0#6 ++ fmt) 0, o0, o1, o2, o3]
  | .setPhr db                   => [cmdWord 0x12 0 db]
  | .setTa ta                    => [cmdWord 0x13 (0#2 ++ ta) 0]
  | .setCrid crid                => [cmdWord 0x14 0 (crid.extractLsb' 32 16), crid.extractLsb' 0 32]
  | .setCrnti rnti               => [cmdWord 0x15 0 rnti]
  | .setScell bitmap             => [cmdWord 0x16 0 0, bitmap]
  | .getSdu                      => [cmdWord 0x20 0 0]
  | .getBsr                      => [cmdWord 0x21 0 0]
  | .getPhr                      => [cmdWord 0x22 0 0]
  | .getTa                       => [cmdWord 0x23 0 0]
  | .getCrid                     => [cmdWord 0x24 0 0]
  | .getCrnti                    => [cmdWord 0x25 0 0]
  | .getScell                    => [cmdWord 0x26 0 0]
  | .getMchSched k               => [cmdWord 0x27 0 k]
  | .rarInitTx total             => [cmdWord 0x30 0 0, total]
  | .rarInitRx total             => [cmdWord 0x31 0 0, total]
  | .rarAppend                   => [cmdWord 0x32 0 0]
  | .rarRemoveLast               => [cmdWord 0x33 0 0]
  | .rarSetBackoff bi            => [cmdWord 0x34 (0#4 ++ bi) 0]
  | .rarSetGrant rapid ta gr tc  => [cmdWord 0x35 (0#2 ++ rapid) tc, 0#21 ++ ta, 0#12 ++ gr]
  | .rarSerialize                => [cmdWord 0x36 0 0]
  | .rarParse                    => [cmdWord 0x37 0 0]
  | .rarIterNext                 => [cmdWord 0x38 0 0]
  | .rarGetGrant                 => [cmdWord 0x39 0 0]
  | .rarGetBackoff               => [cmdWord 0x3A 0 0]

/-! ### The opcode table's numbering -/

/-- The words of the command whose bits are `w`, as spec/opcode_table.json numbers them: word j is bits
32j+31 .. 32j. Bits at `nbits` and above are 0. As many words as word 0's opcode takes (R95). -/
def tableWords (nbits w : Nat) : List Word :=
  let bits := w % 2 ^ nbits
  let word := fun j => BitVec.ofNat 32 (bits / 2 ^ (32 * j))
  word 0 :: (List.range (operandWords (word 0))).map fun j => word (j + 1)

/-- The instruction the decoder reads from a table word, none where it refuses. -/
def decodeTableWord (nbits w : Nat) : Option Instr :=
  match decode (tableWords nbits w) with
  | .ok i      => some i
  | .illegal _ => none

end Sys2Proof
end

