-- ==== Sys2Proof/Machine/Memory.lean ====
section
/-! DEFINITION. The contents of a byte array as plain data, and reading and writing them (20_memory R70 to R77). -/

namespace Sys2Proof.Machine

/-- A byte array in its canonical form (`Memory.wf`): index and byte, indexes strictly rising, no byte equal to what
an unlisted index reads as. -/
abbrev Memory := List Host.Cell

/-- What an index that the list does not name reads as. Every content of a buffer has its list (`Memory.ofBytes`), so
this fixes how a content is written down and not what a buffer holds (log 2). -/
def Memory.unwritten : Byte := 0

/-- One byte of a buffer. -/
def Memory.read : Memory → Nat → Byte
  | [], _ => Memory.unwritten
  | (k, b) :: rest, a => if a = k then b else Memory.read rest a

/-- BUF[a] <- v, keeping the canonical form. -/
def Memory.write : Memory → Nat → Byte → Memory
  | [], a, v => if v = Memory.unwritten then [] else [(a, v)]
  | (k, b) :: rest, a, v =>
    if a < k then (if v = Memory.unwritten then (k, b) :: rest else (a, v) :: (k, b) :: rest)
    else if a = k then (if v = Memory.unwritten then rest else (a, v) :: rest)
    else (k, b) :: Memory.write rest a v

/-- The canonical form: indexes strictly rising, no entry equal to what an unlisted index reads as. -/
def Memory.wf : Memory → Bool
  | [] => true
  | (k, b) :: rest => b != Memory.unwritten && rest.all (fun c => decide (k < c.1)) && Memory.wf rest

/-- Every listed index is below n. -/
def Memory.below (m : Memory) (n : Nat) : Bool := m.all fun c => decide (c.1 < n)

/-- The n bytes BUF[a], ..., BUF[a+n-1]. -/
def Memory.readN (m : Memory) (a : Nat) : Nat → List Byte
  | 0     => []
  | n + 1 => m.read a :: Memory.readN m (a + 1) n

/-- Writes the list to BUF from index a. -/
def Memory.writeN (m : Memory) (a : Nat) : List Byte → Memory
  | []      => m
  | b :: bs => Memory.writeN (m.write a b) (a + 1) bs

/-- The content whose bytes from index a on are the list's, in canonical form, every other index unlisted. -/
def Memory.ofBytes (a : Nat) : List Byte → Memory
  | []      => []
  | b :: bs => if b = Memory.unwritten then Memory.ofBytes (a + 1) bs else (a, b) :: Memory.ofBytes (a + 1) bs

end Sys2Proof.Machine
end

