-- ==== Sys2Proof/Config.lean ====
section
/-! DEFINITION. The instance parameters (00_scope R7), the names the tables are written in, and the free values
of the model that no plain data supplies (log 5, log 12). -/

namespace Sys2Proof

/-- Container direction, the parameter DIR (00_scope R7, 10_state R29). 3 is not a legal value, so it has no name. -/
inductive Dir where
  | dl   -- 0, downlink
  | ul   -- 1, uplink
  | mch  -- 2, multicast
deriving DecidableEq, Repr

/-- Sub-PDU kinds (10_state R38). Codes 15 and 18 to 31 are never held, so they have no name. -/
inductive Kind where
  | empty | sdu | padding
  | shortBsr | longBsr | truncBsr
  | phr | extPhr | crnti | crid | ta | drx | scell1 | scell4 | mchSched
  | rarBackoff | rarGrant
deriving DecidableEq, Repr

/-- One row of an LCID table (30_encoding R106 to R109): the LCIDs lo to hi have this kind. `size` is the row's
payload column: a number of octets, or none where the table says "variable" (R110) and for padding. -/
structure LcidRow where
  lo   : Nat
  hi   : Nat
  kind : Kind
  size : Option Nat
deriving DecidableEq, Repr

/-- The parameter LCID_TABLE: one table per direction. An LCID in no row is reserved. -/
structure LcidTable where
  dl  : List LcidRow
  ul  : List LcidRow
  mch : List LcidRow
deriving DecidableEq, Repr

/-- The instance parameters of 00_scope R7. They are configuration: no command changes them (10_state R20).
`Config.ok` (Machine/Tables.lean) says which values are legal. -/
structure Config where
  dir           : Dir
  maxSubpdus    : Nat
  maxTbBytes    : Nat
  maxRarGrants  : Nat
  bsIdx63Value  : Nat
  lcid          : LcidTable
deriving DecidableEq, Repr

/-- What the SDU source answers to one SourceRead (20_memory R78). `answer` is none for `Err`, else the byte list,
which may be longer than asked (a contract violation). `residue` is what a SET_SDU that ends with ERR_SOURCE leaves in
SDUBUF at SDU_FILL and above: "SDUBUF may hold the source's bytes" (41_container_tx R168), so any list is admitted
(log 6). It has no effect on a SET_SDU that ends otherwise. -/
structure SourceAnswer where
  answer  : Option (List Byte)
  residue : List Byte
deriving DecidableEq, Repr, Inhabited

/-- FREE VALUE: the answer to a SourceRead for which State lists none, by draw number, lcid and max ("The answer is
a free input of the SET_SDU step: a model quantifies over every answer", 20_memory R78). No body: nothing can be
proved of it (log 5). -/
opaque freeSourceAnswer : Nat → BitVec 5 → Nat → SourceAnswer

/-- FREE VALUE: the byte a host read of TXBUF returns while a build is under way: "no rule promises what a host read of
TXBUF returns in TX_BUILD" (20_memory R82). By draw number, COUNT, REM_LEN and index, so that it may change as the build
goes on. No body: nothing can be proved of it (log 12). -/
opaque freeTxByte : Nat → Nat → Nat → Nat → Byte

end Sys2Proof
end

