-- ==== Sys2Proof/Machine/Tables.lean ====
section
/-! DEFINITION. The tables: LCID tables and what is looked up in them (30_encoding part C), the buffer-size table
(40_quantization R140), the legal instance parameters (00_scope R7), and the parameters of the instance that
State.reset stands for. -/

namespace Sys2Proof

/-! ### LCID tables (30_encoding R106 to R109), the default of the parameter LCID_TABLE -/

/-- R107, downlink. -/
def dlRows : List LcidRow :=
  [ ⟨0, 0, .sdu, none⟩, ⟨1, 10, .sdu, none⟩, ⟨24, 24, .scell4, some 4⟩, ⟨27, 27, .scell1, some 1⟩,
    ⟨28, 28, .crid, some 6⟩, ⟨29, 29, .ta, some 1⟩, ⟨30, 30, .drx, some 0⟩, ⟨31, 31, .padding, none⟩ ]

/-- R108, uplink. -/
def ulRows : List LcidRow :=
  [ ⟨0, 0, .sdu, none⟩, ⟨1, 10, .sdu, none⟩, ⟨25, 25, .extPhr, none⟩, ⟨26, 26, .phr, some 1⟩,
    ⟨27, 27, .crnti, some 2⟩, ⟨28, 28, .truncBsr, some 1⟩, ⟨29, 29, .shortBsr, some 1⟩,
    ⟨30, 30, .longBsr, some 3⟩, ⟨31, 31, .padding, none⟩ ]

/-- R109, multicast. -/
def mchRows : List LcidRow :=
  [ ⟨0, 0, .sdu, none⟩, ⟨1, 28, .sdu, none⟩, ⟨30, 30, .mchSched, none⟩, ⟨31, 31, .padding, none⟩ ]

/-- The default LCID_TABLE (00_scope R7). -/
def defaultLcidTable : LcidTable := { dl := dlRows, ul := ulRows, mch := mchRows }

/-- The LCID table of a direction (10_state R29: DIR selects it). -/
def LcidTable.rows (t : LcidTable) : Dir → List LcidRow
  | .dl  => t.dl
  | .ul  => t.ul
  | .mch => t.mch

/-- The instance's own table. -/
def Config.rows (c : Config) : List LcidRow := c.lcid.rows c.dir

/-! ### Looking up (43_container_rx R242, 30_encoding R110) -/

/-- class(DIR, lcid) of 43_container_rx R242. -/
inductive LcidClass where
  | sdu
  | fixed (kind : Kind) (size : Nat)
  | var (kind : Kind)
  | pad
  | reserved
deriving DecidableEq, Repr

/-- The class a table row gives its LCIDs (R242; fixed-size iff the row gives a number, R110). -/
def LcidRow.cls (r : LcidRow) : LcidClass :=
  match r.kind, r.size with
  | .sdu, _      => .sdu
  | .padding, _  => .pad
  | k, some n    => .fixed k n
  | k, none      => .var k

/-- class(DIR, lcid): RESERVED for an LCID in no row (R242, R244). -/
def classOf (c : Config) (lcid : BitVec 5) : LcidClass :=
  match c.rows.find? fun r => r.lo ≤ lcid.toNat && lcid.toNat ≤ r.hi with
  | some r => r.cls
  | none   => .reserved

/-- The kind of an entry of a class (R242). RESERVED has none; EMPTY stands there and no entry has it. -/
def LcidClass.kind : LcidClass → Kind
  | .sdu       => .sdu
  | .fixed k _ => k
  | .var k     => k
  | .pad       => .padding
  | .reserved  => .empty

/-- is_sdu() of R106. -/
def isSduLcid (c : Config) (lcid : BitVec 5) : Bool := classOf c lcid == .sdu

/-- The row of a kind in the instance's table, none if the direction lacks the kind (42_control_elements R200). -/
def kindRow (c : Config) (k : Kind) : Option LcidRow := c.rows.find? fun r => r.kind == k

/-- LCID_OF(DIR, kind) of 42_control_elements R201. -/
def LcidRow.lcid (r : LcidRow) : BitVec 5 := BitVec.ofNat 5 r.lo

/-- CE_SIZE(kind) of R110; 0 for a kind that is not fixed-size under DIR. -/
def ceSize (c : Config) (k : Kind) : Nat :=
  match kindRow c k with
  | some r => r.size.getD 0
  | none   => 0

/-- The control-element kinds (10_state R38). -/
def Kind.isCe : Kind → Bool
  | .shortBsr | .longBsr | .truncBsr | .phr | .extPhr | .crnti | .crid | .ta | .drx | .scell1 | .scell4
  | .mchSched => true
  | .empty | .sdu | .padding | .rarBackoff | .rarGrant => false

/-! ### The buffer-size table (40_quantization R140) -/

/-- BS_EDGE[0..62]: the band upper edges in bytes. -/
def bsEdge : List Nat :=
  [0, 10, 12, 14, 17, 19, 22, 26, 31, 36, 42, 49, 57, 67, 78, 91] ++
  [107, 125, 146, 171, 200, 234, 274, 321, 376, 440, 515, 603, 706, 826, 967, 1132] ++
  [1326, 1552, 1817, 2127, 2490, 2915, 3413, 3995, 4677, 5476, 6411, 7505, 8787, 10287, 12043, 14099] ++
  [16507, 19325, 22624, 26487, 31009, 36304, 42502, 49759, 58255, 68201, 79846, 93479, 109439, 128125, 150000]

/-! ### Legal parameters -/

/-- The payload column a row must have for the payload layouts of 30_encoding part D to fit it: the sizes of R112 to
R120 are fixed by the layouts, MCH_SCHED is variable (R121); DRX and EXT_PHR are left to the table (90_conflicts C8),
up to the 6 octets of a slot's ce field (10_state R37). EMPTY and the RAR kinds have no LCID. (log 11) -/
def LcidRow.sizeOk (r : LcidRow) : Bool :=
  match r.kind with
  | .sdu | .padding | .mchSched                    => r.size == none
  | .shortBsr | .truncBsr | .phr | .ta | .scell1   => r.size == some 1
  | .crnti                                         => r.size == some 2
  | .longBsr                                       => r.size == some 3
  | .scell4                                        => r.size == some 4
  | .crid                                          => r.size == some 6
  | .drx | .extPhr                                 => r.size.getD 0 ≤ 6
  | .empty | .rarBackoff | .rarGrant               => false

/-- Two rows of one table share no LCID, and no kind but SDU. -/
def LcidRow.apart (r q : LcidRow) : Bool :=
  (r.hi < q.lo || q.hi < r.lo) && (r.kind != q.kind || r.kind == .sdu)

/-- A legal table: rows of 5-bit LCIDs, apart from each other, one LCID for each kind but SDU, and LCID 31 marks
padding and nothing else does (30_encoding R102). (log 11) -/
def lcidRowsOk (rows : List LcidRow) : Bool :=
  rows.all (fun r => r.lo ≤ r.hi && r.hi ≤ 31 && r.sizeOk && (r.kind == .sdu || r.lo == r.hi))
    && decide (rows.Pairwise fun r q => r.apart q = true)
    && rows.any (fun r => r.kind == .padding)
    && rows.all (fun r => r.kind != .padding || r.lo == 31)

/-- The constraints of 00_scope R7 on the parameters. BS_IDX63_VALUE is held in a 32-bit register (10_state R21). -/
def Config.ok (c : Config) : Bool :=
  decide (1 ≤ c.maxSubpdus ∧ c.maxSubpdus ≤ 255)
    && decide (1 ≤ c.maxTbBytes ∧ c.maxTbBytes ≤ 2 ^ 24)
    && decide (1 ≤ c.maxRarGrants ∧ c.maxRarGrants ≤ 255)
    && decide (150000 ≤ c.bsIdx63Value ∧ c.bsIdx63Value < 2 ^ 32)
    && lcidRowsOk c.lcid.dl && lcidRowsOk c.lcid.ul && lcidRowsOk c.lcid.mch

/-- DESIGN CHOICE (log 3): the instance that State.reset stands for, a downlink one with the sizes of
95_test_vectors.md ("Unless a vector says otherwise, the instance parameters are ..."). The spec gives no defaults but
those of BS_IDX63_VALUE and LCID_TABLE. -/
def defaultConfig : Config :=
  { dir := .dl, maxSubpdus := 8, maxTbBytes := 1024, maxRarGrants := 4, bsIdx63Value := 150000,
    lcid := defaultLcidTable }

end Sys2Proof
end

