-- ==== Sys2Proof/Machine/State.lean ====
section
/-! DEFINITION. The state of the block as plain data (10_state R20), the reasons a step can stop, and the state after
reset (70_reset_and_hazards R330). Three fields are the model's own: hostq, source and draws (log 4, log 5). -/

namespace Sys2Proof.Machine

/-- STATUS.CODE (60_exceptions R300). Codes 9 to 255 are never written, so they have no name. -/
inductive Status where
  | ok | errCapacity | errCorrupt | errSerialize | errState | errIllegal | errDirection | errSource | iterEnd
deriving DecidableEq, Repr

/-- MODE (10_state R24). Values 5 to 7 are never held. -/
inductive Mode where
  | idle | txBuild | txDone | rxReady | rxParsed
deriving DecidableEq, Repr

/-- CTYPE (10_state R25). -/
inductive CType where
  | general | rar
deriving DecidableEq, Repr

/-- RESULT0 to RESULT8 (10_state R23). -/
structure Results where
  r0 : Word
  r1 : Word
  r2 : Word
  r3 : Word
  r4 : Word
  r5 : Word
  r6 : Word
  r7 : Word
  r8 : Word
deriving DecidableEq, Repr

/-- PEND_OPS: the four operand words of the command being assembled (10_state R47). -/
structure PendOps where
  w1 : Word
  w2 : Word
  w3 : Word
  w4 : Word
deriving DecidableEq, Repr

/-- A slot's ce field: 6 bytes, c0 first on the wire (10_state R37). -/
structure CeBytes where
  c0 : Byte
  c1 : Byte
  c2 : Byte
  c3 : Byte
  c4 : Byte
  c5 : Byte
deriving DecidableEq, Repr

/-- One slot of the general slot file (10_state R37). -/
structure Slot where
  kind       : Kind
  lcid       : BitVec 5
  len        : Nat
  off        : Nat
  ce         : CeBytes
  remBefore  : Nat
  lastBefore : Option Nat
  fillBefore : Nat
deriving DecidableEq, Repr

/-- One slot of the RAR slot file (10_state R42). -/
structure RSlot where
  populated : Bool
  rapid     : BitVec 6
  ta        : BitVec 11
  grant     : BitVec 20
  tc        : BitVec 16
deriving DecidableEq, Repr

/-- What one reset leaves in the state that the reset table calls unspecified (70_reset_and_hazards R330): "An
unspecified value is a free draw for a model". Slots and bytes go by their index; a list shorter than its file or buffer
leaves the rest zero (log 1, log 2), a longer one is cut. -/
structure ResetDraw where
  slots     : List Slot
  rslots    : List RSlot
  pendWord0 : Word
  pendOps   : PendOps
  txbuf     : List Byte
  rxbuf     : List Byte
  sdubuf    : List Byte
deriving DecidableEq, Repr

/-- One access of the host, or its pull of the reset line (00_scope R14, 10_state R21, 20_memory R72, 70 R330), which
comes with the draw of the unspecified values (log 13). -/
inductive HostAccess where
  | writeReg (addr value : Word)
  | readReg (addr : Word)
  | writeRx (index : Nat) (value : Byte)
  | readRx (index : Nat)
  | readTx (index : Nat)
  | reset (draw : ResetDraw)
deriving DecidableEq, Repr

/-- The state of the block (10_state R20), with the instance's parameters (cfg, log 3) and the model's own fields. -/
structure State where
  cfg       : Config
  -- status and results (10_state R22, R23, R32)
  code      : Status
  corrupt   : Bool
  results   : Results
  -- container registers (10_state R24 to R36)
  mode      : Mode
  ctype     : CType
  padPolicy : Bool
  totalLen  : Nat
  remLen    : Nat
  count     : Nat
  lastSdu   : Option Nat
  iter      : Nat
  cur       : Option Nat
  sduFill   : Nat
  -- slot file (10_state R37)
  slots     : List Slot
  -- RAR container (10_state R40 to R42)
  hasBi     : Bool
  bi        : BitVec 4
  rcount    : Nat
  rslots    : List RSlot
  -- command assembly (10_state R47)
  pend      : Bool
  pendWord0 : Word
  pendLeft  : Nat
  pendOps   : PendOps
  -- buffers (20_memory R70)
  txbuf     : Memory
  rxbuf     : Memory
  sdubuf    : Memory
  -- the model's own: host accesses and source answers still to come, and the free-answer counter
  hostq     : List HostAccess
  source    : List SourceAnswer
  draws     : Nat
deriving DecidableEq, Repr

/-- Why a step stops with a fault. -/
inductive Fault where
  /-- Raised by the buffer operations of Machine/Ops.lean and by the host's buffer accesses: an index at or beyond
  MAX_TB_BYTES, which does not exist (20_memory R71). Safe: no rule makes such an access from a state a run reaches,
  and the host has no byte there to reach (log 7). -/
  | bufferRange
deriving DecidableEq, Repr

/-- Why an instruction has no meaning. -/
inductive Refusal where
  /-- Raised by Machine/Dispatch.lean alone, for an instruction not modelled yet. Safe: nothing is claimed of it. -/
  | notModelled (mnemonic : String)
deriving DecidableEq, Repr

/-- What a command, or a step, answers. -/
abbrev Result := Host.Outcome State Fault Refusal

/-! ### Reset (70_reset_and_hazards R330) -/

/-- The slot with every field zero: what a draw that names no slot leaves (log 1). -/
def Slot.zero : Slot :=
  { kind := .empty, lcid := 0, len := 0, off := 0, ce := ⟨0, 0, 0, 0, 0, 0⟩, remBefore := 0, lastBefore := none,
    fillBefore := 0 }

/-- The RAR slot with every field zero (log 1). -/
def RSlot.zero : RSlot := { populated := false, rapid := 0, ta := 0, grant := 0, tc := 0 }

/-- The draw that names nothing. DESIGN CHOICE: the draw of State.reset (log 1, log 2). -/
def ResetDraw.zero : ResetDraw :=
  { slots := [], rslots := [], pendWord0 := 0, pendOps := ⟨0, 0, 0, 0⟩, txbuf := [], rxbuf := [], sdubuf := [] }

/-- A file of n slots with the drawn ones first. -/
def drawnFile {α : Type} (n : Nat) (zero : α) (drawn : List α) : List α :=
  drawn.take n ++ List.replicate (n - drawn.length) zero

/-- A buffer of MAX_TB_BYTES bytes with the drawn content. -/
def drawnBuffer (c : Config) (drawn : List Byte) : Memory := Memory.ofBytes 0 (drawn.take c.maxTbBytes)

/-- The state after reset of an instance with parameters `c`, for each draw `d` of what the reset table leaves
unspecified: the slot files, PEND_WORD0, PEND_OPS and the buffer bytes (70_reset_and_hazards R330, 00_scope R17). -/
def State.resetOf (c : Config) (d : ResetDraw) : State :=
  { cfg := c, code := .ok, corrupt := false, results := ⟨0, 0, 0, 0, 0, 0, 0, 0, 0⟩,
    mode := .idle, ctype := .general, padPolicy := false, totalLen := 0, remLen := 0, count := 0, lastSdu := none,
    iter := 0, cur := none, sduFill := 0,
    slots := drawnFile (c.maxSubpdus + 2) Slot.zero d.slots,
    hasBi := false, bi := 0, rcount := 0, rslots := drawnFile c.maxRarGrants RSlot.zero d.rslots,
    pend := false, pendWord0 := d.pendWord0, pendLeft := 0, pendOps := d.pendOps,
    txbuf := drawnBuffer c d.txbuf, rxbuf := drawnBuffer c d.rxbuf, sdubuf := drawnBuffer c d.sdubuf,
    hostq := [], source := [], draws := 0 }

/-- The state after reset of the instance `defaultConfig` (log 3) with the draw that names nothing (log 1, log 2). -/
def State.reset : State := State.resetOf defaultConfig ResetDraw.zero

end Sys2Proof.Machine
end

