-- ==== Sys2Proof/Machine/Flags.lean ====
section
/-! DEFINITION. The numeric codes of the named states, and the STATUS and STATE registers composed of them (10_state
R21, R24, R38; 60_exceptions R300). The block has no other flags (10_state R45). -/

namespace Sys2Proof.Machine

/-- The number of a status code (60_exceptions R300). -/
def Status.toCode : Status → BitVec 8
  | .ok           => 0
  | .errCapacity  => 1
  | .errCorrupt   => 2
  | .errSerialize => 3
  | .errState     => 4
  | .errIllegal   => 5
  | .errDirection => 6
  | .errSource    => 7
  | .iterEnd      => 8

/-- The number of a MODE (10_state R24). -/
def Mode.toCode : Mode → BitVec 3
  | .idle     => 0
  | .txBuild  => 1
  | .txDone   => 2
  | .rxReady  => 3
  | .rxParsed => 4

/-- The bit of a CTYPE (10_state R25). -/
def CType.toBit : CType → BitVec 1
  | .general => 0
  | .rar     => 1

/-- The number of a direction (00_scope R7). -/
def dirCode : Dir → BitVec 2
  | .dl  => 0
  | .ul  => 1
  | .mch => 2

/-- The code of a sub-PDU kind (10_state R38). -/
def kindCode : Kind → BitVec 5
  | .empty      => 0
  | .sdu        => 1
  | .padding    => 2
  | .shortBsr   => 3
  | .longBsr    => 4
  | .truncBsr   => 5
  | .phr        => 6
  | .extPhr     => 7
  | .crnti      => 8
  | .crid       => 9
  | .ta         => 10
  | .drx        => 11
  | .scell1     => 12
  | .scell4     => 13
  | .mchSched   => 14
  | .rarBackoff => 16
  | .rarGrant   => 17

/-- The STATUS register: [7:0] CODE, [8] CORRUPT, [31:9] 0 (10_state R21, R22). -/
def statusWord (s : State) : Word :=
  0#23 ++ BitVec.ofBool s.corrupt ++ s.code.toCode

/-- The STATE register: [2:0] MODE, [3] CTYPE, [4] HAS_BI, [5] PAD_POLICY, [7:6] DIR, [31:8] 0 (10_state R21). -/
def stateWord (s : State) : Word :=
  0#24 ++ dirCode s.cfg.dir ++ BitVec.ofBool s.padPolicy ++ BitVec.ofBool s.hasBi ++ s.ctype.toBit ++ s.mode.toCode

end Sys2Proof.Machine
end

