-- ==== Sys2Proof/Machine/Quant.lean ====
section
/-! DEFINITION. Buffer-size and power-headroom quantization (40_quantization): pure functions, no commands. -/

namespace Sys2Proof.Machine

/-- `bs_index(x)` (R141): the least i in 0..62 with x <= BS_EDGE[i], else 63. -/
def bsIndex (x : Nat) : Nat := bsEdge.findIdx fun edge => decide (x ≤ edge)

/-- `bs_value(i)` (R142): BS_EDGE[i] for i <= 62, BS_IDX63_VALUE for 63. -/
def bsValue (c : Config) (i : BitVec 6) : Nat :=
  if i.toNat ≤ 62 then bsEdge.getD i.toNat 0 else c.bsIdx63Value

/-- `ph_index(v)` (R146): clamp to -23..40, then add 23. -/
def phIndex (v : Int) : Nat := (min (max v (-23)) 40 + 23).toNat

/-- `ph_value(i)` (R147). -/
def phValue (i : BitVec 6) : Int := (i.toNat : Int) - 23

/-- `bs_index(x)[5:0]` of an occupancy word (42_control_elements R202; the input is an unsigned 32-bit count, D24). -/
def bsIndexBits (occ : Word) : BitVec 6 := BitVec.ofNat 6 (bsIndex occ.toNat)

end Sys2Proof.Machine
end

