-- ==== Sys2Proof/Machine/Operands.lean ====
section
/-! DEFINITION. Bytes and values in wire order, and the control-element payloads made from and read back into operands
(20_memory R74, 30_encoding part D, 42_control_elements). Every multi-octet field is big-endian (R74). -/

namespace Sys2Proof.Machine

/-- The low `8 * n` bits of a value as n octets, most significant first (20_memory R74). -/
def octets {w : Nat} (v : BitVec w) : Nat → List Byte
  | 0     => []
  | n + 1 => v.extractLsb' (8 * n) 8 :: octets v n

/-- A count or length as a 32-bit register value (00_scope R9). -/
def word (n : Nat) : Word := BitVec.ofNat 32 n

/-- A slot's ce field from a payload: ce[0 .. len-1] the payload, the bytes beyond it 0 (10_state R37). -/
def CeBytes.ofList (bytes : List Byte) : CeBytes :=
  { c0 := bytes.getD 0 0, c1 := bytes.getD 1 0, c2 := bytes.getD 2 0, c3 := bytes.getD 3 0, c4 := bytes.getD 4 0,
    c5 := bytes.getD 5 0 }

/-- The ce field as a byte list, ce[0] first. -/
def CeBytes.toList (c : CeBytes) : List Byte := [c.c0, c.c1, c.c2, c.c3, c.c4, c.c5]

/-! ### Payloads the SET_ commands write -/

/-- Long BSR: `{BS0, BS1, BS2, BS3}`, 24 bits, LCG 0 on top (30_encoding R113, 42_control_elements R202). -/
def longBsrPayload (occ0 occ1 occ2 occ3 : Word) : List Byte :=
  octets (bsIndexBits occ0 ++ bsIndexBits occ1 ++ bsIndexBits occ2 ++ bsIndexBits occ3 : BitVec 24) 3

/-- `sel_group` (42_control_elements R203): the highest-numbered group with a nonzero occupancy, else 0, and its
occupancy. -/
def selGroup (occ0 occ1 occ2 occ3 : Word) : BitVec 2 × Word :=
  if occ3 ≠ 0 then (3, occ3)
  else if occ2 ≠ 0 then (2, occ2)
  else if occ1 ≠ 0 then (1, occ1)
  else (0, occ0)

/-- Short and Truncated BSR: `LCG(2) | BS(6)` of the selected group (30_encoding R112, 42_control_elements R202). -/
def oneGroupBsrPayload (occ0 occ1 occ2 occ3 : Word) : List Byte :=
  let g := selGroup occ0 occ1 occ2 occ3
  [g.1 ++ bsIndexBits g.2]

/-- PHR: `R(2) | PH(6)` of the signed dB operand (30_encoding R94, R114; 42_control_elements R205). -/
def phrPayload (db : BitVec 16) : List Byte := [0#2 ++ BitVec.ofNat 6 (phIndex db.toInt)]

/-- Timing advance: `TAG(2) | TA(6)`, TAG written 0 (30_encoding R117, 42_control_elements R206). -/
def taPayload (ta : BitVec 6) : List Byte := [0#2 ++ ta]

/-- The SCell bitmap with its reserved bit 0 cleared (42_control_elements R209, R217). -/
def clearBit0 (bitmap : Word) : Word := bitmap &&& 0xFFFFFFFE#32

/-- SET_SCELL's kind and payload: the 1-octet form iff b[31:8] = 0 (42_control_elements R209). -/
def scellForm (bitmap : Word) : Kind × List Byte :=
  let b := clearBit0 bitmap
  if b.extractLsb' 8 24 = 0 then (.scell1, octets b 1) else (.scell4, octets b 4)

/-! ### Values the GET_ commands read -/

/-- The four indices and the dominant group of a BSR payload (42_control_elements R212). -/
structure BsrFields where
  idx0 : BitVec 6
  idx1 : BitVec 6
  idx2 : BitVec 6
  idx3 : BitVec 6
  dom  : Nat
deriving DecidableEq, Repr

/-- Long BSR: idx0 = p[23:18] .. idx3 = p[5:0]; dom the least i whose index is the largest (R212). -/
def longBsrFields (c : CeBytes) : BsrFields :=
  let p : BitVec 24 := c.c0 ++ c.c1 ++ c.c2
  let i0 := p.extractLsb' 18 6
  let i1 := p.extractLsb' 12 6
  let i2 := p.extractLsb' 6 6
  let i3 := p.extractLsb' 0 6
  let top := max (max i0.toNat i1.toNat) (max i2.toNat i3.toNat)
  { idx0 := i0, idx1 := i1, idx2 := i2, idx3 := i3, dom := [i0, i1, i2, i3].findIdx fun i => i.toNat == top }

/-- Short and Truncated BSR: the group in the payload is reported, the others read index 0 (R212). -/
def oneGroupBsrFields (c : CeBytes) : BsrFields :=
  let g := (c.c0.extractLsb' 6 2).toNat
  let i := c.c0.extractLsb' 0 6
  let at' := fun j => if j = g then i else 0#6
  { idx0 := at' 0, idx1 := at' 1, idx2 := at' 2, idx3 := at' 3, dom := g }

/-- The entry of a list of bytes at an index, 0 beyond its end. -/
def byteAt (bytes : List Byte) (j : Nat) : Byte := bytes.getD j 0

end Sys2Proof.Machine
end

