-- ==== Sys2Proof/Machine/Ops.lean ====
section
/-! DEFINITION. The named operations the commands share: ending a command (00_scope R11, 60_exceptions R302), the byte
buffers (20_memory), slot access (10_state R37, R42), header sizing (41_container_tx R160), the SDU source (20_memory
R78) and initialising a container (41_container_tx R162).

Taking an error is `fail`: the block has no traps, saves nothing and enters no handler (60_exceptions R308); there is
no return from one (R309). -/

namespace Sys2Proof.Machine

/-! ### Named updates of the state -/

/-- STATUS.CODE <- c. -/
def State.withCode (s : State) (c : Status) : State := { s with code := c }

/-- RESULT0 .. RESULT(n-1) <- the n values; the other RESULT registers keep theirs (10_state R23). -/
def Results.write (r : Results) (xs : List Word) : Results :=
  { r0 := xs.getD 0 r.r0, r1 := xs.getD 1 r.r1, r2 := xs.getD 2 r.r2, r3 := xs.getD 3 r.r3, r4 := xs.getD 4 r.r4,
    r5 := xs.getD 5 r.r5, r6 := xs.getD 6 r.r6, r7 := xs.getD 7 r.r7, r8 := xs.getD 8 r.r8 }

/-- RESULT0 .. <- xs. -/
def State.withResults (s : State) (xs : List Word) : State := { s with results := s.results.write xs }

/-- SLOT[k] <- x. An index beyond the slot file changes nothing (log 8). -/
def State.setSlot (s : State) (k : Nat) (x : Slot) : State := { s with slots := s.slots.set k x }

/-- RSLOT[k] <- x. An index beyond the slot file changes nothing (log 8). -/
def State.setRSlot (s : State) (k : Nat) (x : RSlot) : State := { s with rslots := s.rslots.set k x }

/-! ### Ending a command -/

/-- `fail CODE`: STATUS.CODE <- CODE and nothing else (00_scope R11, 60_exceptions R302). -/
def fail (c : Status) (s : State) : Result := .next (s.withCode c)

/-- `done` with no RESULT named: STATUS.CODE <- OK. -/
def done (s : State) : Result := .next (s.withCode .ok)

/-- `RESULT0 <- ..; RESULT1 <- ..; done`. -/
def doneWith (xs : List Word) (s : State) : Result := .next ((s.withResults xs).withCode .ok)

/-! ### Access to the byte buffers (20_memory R70 to R77) -/

/-- The n bytes from index a are bytes of a buffer: a buffer index is less than MAX_TB_BYTES (20_memory R71). -/
def inBuffer (c : Config) (a n : Nat) : Bool := n == 0 || decide (a + n ≤ c.maxTbBytes)

/-- MemRead(BUF, a, n) (00_scope R11); none when it leaves the buffer (log 7). -/
def memRead (c : Config) (m : Memory) (a n : Nat) : Option (List Byte) :=
  if inBuffer c a n then some (m.readN a n) else none

/-- MemWrite(BUF, a, bytes) (00_scope R11); none when it leaves the buffer (log 7). -/
def memWrite (c : Config) (m : Memory) (a : Nat) (bytes : List Byte) : Option Memory :=
  if inBuffer c a bytes.length then some (m.writeN a bytes) else none

/-- Goes on with what a buffer access gives, or stops with the fault of an access outside the buffer (log 7). -/
def orFault {α : Type} (r : Option α) (k : α → Result) : Result :=
  match r with
  | some x => k x
  | none   => .fault .bufferRange

/-! ### Slots (10_state R37, R42) -/

/-- SLOT[k]. An index beyond the slot file reads as a zero slot (log 8). -/
def slotAt (s : State) (k : Nat) : Slot := s.slots.getD k Slot.zero

/-- RSLOT[k]. An index beyond the slot file reads as a zero slot (log 8). -/
def rslotAt (s : State) (k : Nat) : RSlot := s.rslots.getD k RSlot.zero

/-- The general slots in use, in index order: slot k is in use iff k < COUNT. -/
def slotsInUse (s : State) : List Slot := s.slots.take s.count

/-- The RAR slots in use: slot k is in use iff k < RCOUNT (10_state R42). -/
def rslotsInUse (s : State) : List RSlot := s.rslots.take s.rcount

/-- CTYPE = ct and MODE = TX_BUILD. -/
def building (ct : CType) (s : State) : Bool := s.ctype == ct && s.mode == .txBuild

/-- CTYPE = ct and MODE = RX_PARSED. -/
def parsed (ct : CType) (s : State) : Bool := s.ctype == ct && s.mode == .rxParsed

/-- CTYPE = ct and MODE in {RX_READY, RX_PARSED}. -/
def receiving (ct : CType) (s : State) : Bool := s.ctype == ct && (s.mode == .rxReady || s.mode == .rxParsed)

/-- COUNT > 0 and SLOT[COUNT-1].kind = EMPTY: the last slot waits to be populated. -/
def lastSlotEmpty (s : State) : Bool := s.count != 0 && (slotAt s (s.count - 1)).kind == .empty

/-- RCOUNT > 0 and RSLOT[RCOUNT-1].populated = 0. -/
def lastRSlotUnpopulated (s : State) : Bool := s.rcount != 0 && !(rslotAt s (s.rcount - 1)).populated

/-! ### Header sizing (41_container_tx R160) and SDU space (10_state R35) -/

/-- `hsize(n)`: the non-final subheader of a payload of n bytes. -/
def hsize (n : Nat) : Nat := if n < 128 then 2 else 3

/-- `grow`: what the header of the last SDU gains when it is last no more: (LAST_SDU = NONE) ? 0 : hsize(len) - 1. -/
def headerGrowth (s : State) : Nat :=
  match s.lastSdu with
  | none   => 0
  | some k => hsize (slotAt s k).len - 1

/-- REM_LEN - 1 - grow, signed (10_state R35, 41_container_tx R166). -/
def sduRoom (s : State) : Int := (s.remLen : Int) - 1 - headerGrowth s

/-! ### The SDU source (20_memory R78) -/

/-- SourceRead(lcid, max): the next answer that State lists, else a free one (log 5), with the state after the draw. -/
def sourceRead (lcid : BitVec 5) (max : Nat) (s : State) : SourceAnswer × State :=
  match s.source with
  | a :: rest => (a, { s with source := rest })
  | []        => (freeSourceAnswer s.draws lcid max, { s with draws := s.draws + 1 })

/-! ### Initialising a container -/

/-- What every INIT command does: the container registers set for `ct` and `mode`, everything else of the container
cleared (41_container_tx R162, 43_container_rx R240, 44_rar R272, R280). Slots and buffers are left alone. -/
def State.initContainer (s : State) (ct : CType) (mode : Mode) (pad : Bool) (total rem : Nat) : State :=
  { s with ctype := ct, mode := mode, padPolicy := pad, totalLen := total, remLen := rem, count := 0, lastSdu := none,
           sduFill := 0, corrupt := false, iter := 0, cur := none, rcount := 0, hasBi := false, bi := 0 }

/-- The check every INIT command makes first: total_length > MAX_TB_BYTES fails ERR_ILLEGAL. -/
def initCommand (ct : CType) (mode : Mode) (pad : Bool) (total : Word) (rem : Nat) (s : State) : Result :=
  if s.cfg.maxTbBytes < total.toNat then fail .errIllegal s
  else done (s.initContainer ct mode pad total.toNat rem)

end Sys2Proof.Machine
end

