-- ==== Sys2Proof/Machine/Container.lean ====
section
/-! DEFINITION. The general container, transmit side: INIT_TX, APPEND, REMOVE_LAST, SET_SDU, SERIALIZE
(41_container_tx). -/

namespace Sys2Proof.Machine

/-! ### INIT_TX, APPEND, REMOVE_LAST -/

/-- INIT_TX (R162). -/
def execInitTx (padPolicy : Bool) (totalLength : Word) (s : State) : Result :=
  initCommand .general .txBuild padPolicy totalLength totalLength.toNat s

/-- The slot APPEND claims: EMPTY, with the snapshot REMOVE_LAST restores (R163). -/
def freshSlot (s : State) : Slot :=
  { kind := .empty, lcid := 0, len := 0, off := 0, ce := CeBytes.ofList [], remBefore := s.remLen,
    lastBefore := s.lastSdu, fillBefore := s.sduFill }

/-- APPEND (R163). -/
def execAppend (s : State) : Result :=
  if !building .general s then fail .errState s
  else if lastSlotEmpty s then fail .errState s
  else if s.count = s.cfg.maxSubpdus then fail .errCapacity s
  else
    let k := s.count
    doneWith [word k] { s.setSlot k (freshSlot s) with count := k + 1 }

/-- REMOVE_LAST (R164). -/
def execRemoveLast (s : State) : Result :=
  if !building .general s then fail .errState s
  else if s.count = 0 then fail .errState s
  else
    let k := s.count - 1
    let old := slotAt s k
    doneWith [word k]
      { s with remLen := old.remBefore, lastSdu := old.lastBefore, sduFill := old.fillBefore, count := k }

/-! ### SET_SDU (R165 to R168) -/

/-- A SourceRead that answered Err, or too much: ERR_SOURCE, nothing committed; SDUBUF holds `residue` at SDU_FILL and
above, as far as the buffer goes (R168; log 6). -/
def sourceFailed (residue : List Byte) (s : State) : Result :=
  fail .errSource
    { s with sdubuf := s.sdubuf.writeN s.sduFill (residue.take (s.cfg.maxTbBytes - s.sduFill)) }

/-- The registers and the slot once the SDU's n bytes are staged (R166). -/
def placeSdu (lcid : BitVec 5) (n : Nat) (s : State) : State :=
  let k := s.count - 1
  let placed := { slotAt s k with kind := .sdu, lcid := lcid, len := n, off := s.sduFill }
  { s.setSlot k placed with
    sduFill := s.sduFill + n, remLen := s.remLen - (n + 1 + headerGrowth s), lastSdu := some k }

/-- Staging and committing a non-empty answer (R166, 20_memory R79). -/
def commitSdu (lcid : BitVec 5) (d : List Byte) (s : State) : Result :=
  orFault (memWrite s.cfg s.sdubuf s.sduFill d) fun m =>
    doneWith [word d.length] (placeSdu lcid d.length { s with sdubuf := m })

/-- What SET_SDU does with the source's answer to a request of mx bytes (R166). -/
def takeAnswer (lcid : BitVec 5) (mx : Nat) (a : SourceAnswer) (s : State) : Result :=
  match a.answer with
  | none   => sourceFailed a.residue s
  | some d =>
    if mx < d.length then sourceFailed a.residue s
    else if d.length = 0 then doneWith [word 0] s
    else commitSdu lcid d s

/-- The bytes SET_SDU asks for: min(requested_bytes, space, 32767) (R166). -/
def sduRequest (requested : Word) (s : State) : Nat :=
  min requested.toNat (min (sduRoom s).toNat 32767)

/-- SET_SDU (R166). -/
def execSetSdu (lcid : BitVec 5) (requestedBytes : Word) (s : State) : Result :=
  if !building .general s then fail .errState s
  else if !lastSlotEmpty s then fail .errState s
  else if !isSduLcid s.cfg lcid then fail .errDirection s
  else if sduRoom s < 1 then fail .errCapacity s
  else if sduRequest requestedBytes s = 0 then doneWith [word 0] s
  else
    let drawn := sourceRead lcid (sduRequest requestedBytes s) s
    takeAnswer lcid (sduRequest requestedBytes s) drawn.1 drawn.2

/-! ### SERIALIZE (R170 to R178) -/

/-- The entries of the subheader list S (R173). -/
inductive SubEntry where
  | pad1
  | padM
  | ce (slot : Slot)
  | sdu (slot : Slot)
deriving DecidableEq, Repr

/-- MULTI of R171: padding need > 2. -/
def multiPad (s : State) : Bool := decide (2 < s.remLen)

/-- NPAD1 of R171. -/
def padOnes (s : State) : Nat := if multiPad s then 0 else s.remLen

/-- ZEROS of R171. -/
def padZeros (s : State) : Nat := if multiPad s then s.remLen - 1 - headerGrowth s else 0

/-- The CE slots of the build, in insertion order (R173). -/
def ceSlots (s : State) : List Slot := (slotsInUse s).filter fun x => x.kind.isCe

/-- The SDU slots of the build, in insertion order (R173). -/
def sduSlots (s : State) : List Slot := (slotsInUse s).filter fun x => x.kind == .sdu

/-- The subheader list S (R173). -/
def subEntries (s : State) : List SubEntry :=
  List.replicate (padOnes s) .pad1 ++ (ceSlots s).map .ce ++ (sduSlots s).map .sdu
    ++ (if multiPad s then [.padM] else [])

/-- A 1-byte subheader `R(2)=00 | E | LCID(5)` (30_encoding R98, R103). -/
def subheaderByte (e : Bool) (lcid : BitVec 5) : Byte := 0#2 ++ BitVec.ofBool e ++ lcid

/-- The length field of a payload of n bytes: `{0, n[6:0]}`, or `{1, n[14:8]}, n[7:0]` (30_encoding R99, R100). -/
def lengthField (n : Nat) : List Byte :=
  if n < 128 then [0#1 ++ BitVec.ofNat 7 n]
  else [1#1 ++ (BitVec.ofNat 15 n).extractLsb' 8 7, (BitVec.ofNat 15 n).extractLsb' 0 8]

/-- sub(S[j], e) (R175). -/
def SubEntry.bytes (e : Bool) : SubEntry → List Byte
  | .pad1  => [subheaderByte e 31]
  | .padM  => [subheaderByte e 31]
  | .ce x  => [subheaderByte e x.lcid]
  | .sdu x => subheaderByte e x.lcid :: (if e then lengthField x.len else [])

/-- H: the subheaders in order, E = 1 on every one but the last (R174, R175). -/
def headerBytes : List SubEntry → List Byte
  | []            => []
  | [x]           => x.bytes false
  | x :: y :: rest => x.bytes true ++ headerBytes (y :: rest)

/-- C: the CE payloads in S order (R176). -/
def cePayloads (c : Config) (xs : List Slot) : List Byte :=
  xs.flatMap fun x => x.ce.toList.take (ceSize c x.kind)

/-- D: the staged SDU payloads in S order, none if one lies outside SDUBUF (R176; log 7). -/
def sduPayloads (c : Config) (m : Memory) : List Slot → Option (List Byte)
  | []      => some []
  | x :: xs =>
    match memRead c m x.off x.len, sduPayloads c m xs with
    | some b, some bs => some (b ++ bs)
    | _, _            => none

/-- OUT = H ++ C ++ D ++ Z, with the SDU payloads D given (R176). -/
def serializedBytes (s : State) (d : List Byte) : List Byte :=
  headerBytes (subEntries s) ++ cePayloads s.cfg (ceSlots s) ++ d ++ List.replicate (padZeros s) 0#8

/-- The commit of a serialized block `out`: the postcondition check (R177), then TXBUF, MODE and the results (R178). -/
def commitBlock (out : List Byte) (results : List Word) (s : State) : Result :=
  if out.length ≠ s.totalLen then fail .errSerialize { s with mode := .idle }
  else
    orFault (memWrite s.cfg s.txbuf 0 out) fun m => doneWith results { s with txbuf := m, mode := .txDone }

/-- SERIALIZE (R170 to R178). -/
def execSerialize (s : State) : Result :=
  if !building .general s then fail .errState s
  else if (slotsInUse s).any fun x => x.kind == .empty then fail .errState s
  else
    orFault (sduPayloads s.cfg s.sdubuf (sduSlots s)) fun d =>
      commitBlock (serializedBytes s d)
        [word s.totalLen, word (headerBytes (subEntries s)).length,
         word (padOnes s + (if multiPad s then 1 else 0)), word (padZeros s)] s

end Sys2Proof.Machine
end

