-- ==== Sys2Proof/Machine/Elements.lean ====
section
/-! DEFINITION. Control elements: the SET_ commands that encode one into the last slot and the GET_ commands that decode
the entry CUR names (42_control_elements). -/

namespace Sys2Proof.Machine

/-! ### The common patterns -/

/-- `reserve_ce(kind, payload)`, with the kind's row of the instance's table (R201). -/
def reserveCe (row : LcidRow) (kind : Kind) (payload : List Byte) (s : State) : Result :=
  let size := row.size.getD 0
  if s.remLen < size + 1 then fail .errCapacity s
  else
    let k := s.count - 1
    let filled :=
      { slotAt s k with kind := kind, lcid := row.lcid, len := size, ce := CeBytes.ofList (payload.take size) }
    done { s.setSlot k filled with remLen := s.remLen - (size + 1) }

/-- The common checks of every SET_ CE command (R200), then the reservation (R201). A kind is settable under DIR when
the direction's table has it. -/
def setCe (kind : Kind) (payload : List Byte) (s : State) : Result :=
  if !building .general s then fail .errState s
  else if !lastSlotEmpty s then fail .errState s
  else
    match kindRow s.cfg kind with
    | none     => fail .errDirection s
    | some row => reserveCe row kind payload s

/-- The common checks of every GET_ command (R211): goes on with the entry CUR names when its kind is one the command
decodes. -/
def withEntry (decodes : Kind → Bool) (s : State) (k : Slot → Result) : Result :=
  if !parsed .general s then fail .errState s
  else
    match s.cur with
    | none   => fail .errState s
    | some c => if decodes (slotAt s c).kind then k (slotAt s c) else fail .errState s

/-! ### SET_ -/

/-- SET_BSR's kind by format; fmt = 3 is none (R202, 30_encoding R93). -/
def bsrKind (fmt : BitVec 2) : Option Kind :=
  if fmt = 0 then some .shortBsr
  else if fmt = 1 then some .longBsr
  else if fmt = 2 then some .truncBsr
  else none

/-- SET_BSR's payload (R202). -/
def bsrPayload (kind : Kind) (occ0 occ1 occ2 occ3 : Word) : List Byte :=
  if kind = .longBsr then longBsrPayload occ0 occ1 occ2 occ3 else oneGroupBsrPayload occ0 occ1 occ2 occ3

/-- SET_BSR (R202). The decoder lets no fmt = 3 through; the command itself ends with ERR_ILLEGAL on it (log 14). -/
def execSetBsr (fmt : BitVec 2) (occ0 occ1 occ2 occ3 : Word) (s : State) : Result :=
  match bsrKind fmt with
  | none      => fail .errIllegal s
  | some kind => setCe kind (bsrPayload kind occ0 occ1 occ2 occ3) s

/-- SET_PHR (R205). -/
def execSetPhr (db : BitVec 16) (s : State) : Result := setCe .phr (phrPayload db) s

/-- SET_TA (R206). -/
def execSetTa (ta : BitVec 6) (s : State) : Result := setCe .ta (taPayload ta) s

/-- SET_CRID (R207). -/
def execSetCrid (crid : BitVec 48) (s : State) : Result := setCe .crid (octets crid 6) s

/-- SET_CRNTI (R208). -/
def execSetCrnti (rnti : BitVec 16) (s : State) : Result := setCe .crnti (octets rnti 2) s

/-- SET_SCELL (R209). -/
def execSetScell (bitmap : Word) (s : State) : Result :=
  setCe (scellForm bitmap).1 (scellForm bitmap).2 s

/-! ### GET_ -/

/-- The kinds GET_BSR decodes (R212). -/
def isBsrKind (k : Kind) : Bool := k == .shortBsr || k == .longBsr || k == .truncBsr

/-- GET_BSR (R212). -/
def execGetBsr (s : State) : Result :=
  withEntry isBsrKind s fun e =>
    let f := if e.kind = .longBsr then longBsrFields e.ce else oneGroupBsrFields e.ce
    doneWith
      [word (bsValue s.cfg f.idx0), word (bsValue s.cfg f.idx1), word (bsValue s.cfg f.idx2),
       word (bsValue s.cfg f.idx3), word f.dom,
       f.idx0.setWidth 32, f.idx1.setWidth 32, f.idx2.setWidth 32, f.idx3.setWidth 32] s

/-- GET_PHR (R213). -/
def execGetPhr (s : State) : Result :=
  withEntry (· == .phr) s fun e =>
    let i := e.ce.c0.extractLsb' 0 6
    doneWith [BitVec.ofInt 32 (phValue i), i.setWidth 32] s

/-- GET_TA (R214). -/
def execGetTa (s : State) : Result :=
  withEntry (· == .ta) s fun e =>
    doneWith [(e.ce.c0.extractLsb' 0 6).setWidth 32, (e.ce.c0.extractLsb' 6 2).setWidth 32] s

/-- GET_CRID (R215). -/
def execGetCrid (s : State) : Result :=
  withEntry (· == .crid) s fun e =>
    doneWith [(e.ce.c0 ++ e.ce.c1).setWidth 32, (e.ce.c2 ++ e.ce.c3 ++ e.ce.c4 ++ e.ce.c5 : BitVec 32)] s

/-- GET_CRNTI (R216). -/
def execGetCrnti (s : State) : Result :=
  withEntry (· == .crnti) s fun e => doneWith [(e.ce.c0 ++ e.ce.c1).setWidth 32] s

/-- GET_SCELL (R217). -/
def execGetScell (s : State) : Result :=
  withEntry (fun k => k == .scell1 || k == .scell4) s fun e =>
    if e.kind = .scell1 then doneWith [clearBit0 (e.ce.c0.setWidth 32), 1] s
    else doneWith [clearBit0 (e.ce.c0 ++ e.ce.c1 ++ e.ce.c2 ++ e.ce.c3 : BitVec 32), 4] s

/-- GET_MCH_SCHED k (R218). The two bytes are read from RXBUF when the command runs (20_memory R83, R87). -/
def execGetMchSched (k : BitVec 16) (s : State) : Result :=
  withEntry (· == .mchSched) s fun e =>
    let entries := e.len / 2
    if entries ≤ k.toNat then fail .errIllegal s
    else
      orFault (memRead s.cfg s.rxbuf (e.off + 2 * k.toNat) 2) fun w =>
        let v : BitVec 16 := byteAt w 0 ++ byteAt w 1
        doneWith [v.setWidth 32, (v.extractLsb' 11 5).setWidth 32, (v.extractLsb' 0 11).setWidth 32, word entries] s

end Sys2Proof.Machine
end

