-- ==== Sys2Proof/Machine/Rar.lean ====
section
/-! DEFINITION. The random-access-response container (44_rar; wire format 30_encoding R123 to R125). -/

namespace Sys2Proof.Machine

/-- RAR_INIT_TX (R272). -/
def execRarInitTx (totalLength : Word) (s : State) : Result :=
  initCommand .rar .txBuild false totalLength totalLength.toNat s

/-- RAR_INIT_RX (R280). -/
def execRarInitRx (totalLength : Word) (s : State) : Result :=
  initCommand .rar .rxReady false totalLength 0 s

/-- RAR_APPEND (R273). -/
def execRarAppend (s : State) : Result :=
  if !building .rar s then fail .errState s
  else if lastRSlotUnpopulated s then fail .errState s
  else if s.rcount = s.cfg.maxRarGrants then fail .errCapacity s
  else
    let k := s.rcount
    doneWith [word k]
      { s.setRSlot k { populated := false, rapid := 0, ta := 0, grant := 0, tc := 0 } with rcount := k + 1 }

/-- RAR_REMOVE_LAST (R274). -/
def execRarRemoveLast (s : State) : Result :=
  if !building .rar s then fail .errState s
  else if s.rcount = 0 then fail .errState s
  else
    let k := s.rcount - 1
    let freed := if (rslotAt s k).populated then s.remLen + 7 else s.remLen
    doneWith [word k] { s with remLen := freed, rcount := k }

/-- RAR_SET_BACKOFF (R275). -/
def execRarSetBackoff (bi : BitVec 4) (s : State) : Result :=
  if !building .rar s then fail .errState s
  else if s.hasBi then done { s with hasBi := true, bi := bi }
  else if s.remLen < 1 then fail .errCapacity s
  else done { s with remLen := s.remLen - 1, hasBi := true, bi := bi }

/-- RAR_SET_GRANT (R276). -/
def execRarSetGrant (rapid : BitVec 6) (ta : BitVec 11) (grant : BitVec 20) (tc : BitVec 16) (s : State) : Result :=
  if !building .rar s then fail .errState s
  else if !lastRSlotUnpopulated s then fail .errState s
  else if s.remLen < 7 then fail .errCapacity s
  else
    let k := s.rcount - 1
    done { s.setRSlot k { populated := true, rapid := rapid, ta := ta, grant := grant, tc := tc } with
           remLen := s.remLen - 7 }

/-! ### RAR_SERIALIZE (R277, R278) -/

/-- The backoff subheader `{E, T=0, 00, BI(4)}` (30_encoding R123, 90_conflicts C9). -/
def backoffByte (e : Bool) (bi : BitVec 4) : Byte := BitVec.ofBool e ++ 0#3 ++ bi

/-- A grant subheader `{E, T=1, RAPID(6)}` (30_encoding R123). -/
def grantByte (e : Bool) (rapid : BitVec 6) : Byte := BitVec.ofBool e ++ 1#1 ++ rapid

/-- The grant subheaders, E = 1 on every one but the last (R277). -/
def grantHeaders : List RSlot → List Byte
  | []      => []
  | g :: gs => grantByte (!gs.isEmpty) g.rapid :: grantHeaders gs

/-- SH: the backoff byte if there is one, with E = 1 iff a grant follows, then the grant subheaders (R277). -/
def rarHeaders (s : State) : List Byte :=
  (if s.hasBi then [backoffByte (!(rslotsInUse s).isEmpty) s.bi] else []) ++ grantHeaders (rslotsInUse s)

/-- The 48-bit grant payload `{R=0, TA(11), GRANT(20), TC(16)}` (30_encoding R124). -/
def grantValue (g : RSlot) : BitVec 48 := 0#1 ++ g.ta ++ g.grant ++ g.tc

/-- PL: the grant payloads, 6 octets each, big-endian (R277). -/
def grantPayloads (gs : List RSlot) : List Byte := gs.flatMap fun g => octets (grantValue g) 6

/-- RAR_SERIALIZE (R277). Z fills the block to TOTAL_LEN; headers and payloads longer than that fail the check. -/
def execRarSerialize (s : State) : Result :=
  if !building .rar s then fail .errState s
  else if lastRSlotUnpopulated s then fail .errState s
  else if !s.hasBi && s.rcount = 0 then fail .errState s
  else
    let sh := rarHeaders s
    let pl := grantPayloads (rslotsInUse s)
    let zlen := s.totalLen - sh.length - pl.length
    commitBlock (sh ++ pl ++ List.replicate zlen 0#8) [word s.totalLen, word sh.length, word zlen] s

/-! ### RAR_PARSE (R281) -/

/-- What the RAR subheader walk finds: the backoff indicator, the RAPIDs in order, the number of subheader bytes. -/
structure RarHeads where
  bi     : Option (BitVec 4)
  rapids : List (BitVec 6)
  hlen   : Nat
deriving DecidableEq, Repr

/-- The loop of R281 over the bytes from `pos` on, after `m` grants; none is `corrupt`: no subheader with E = 0, a
backoff not in first place, or more than MAX_RAR_GRANTS grants. -/
def walkRar (maxGrants : Nat) : List Byte → (pos m : Nat) → Option RarHeads
  | [], _, _ => none
  | o :: rest, pos, m =>
    if !o.getLsbD 6 then
      if pos ≠ 0 then none
      else if o.getLsbD 7 then
        (walkRar maxGrants rest (pos + 1) m).map fun h => { h with bi := some (o.extractLsb' 0 4) }
      else some ⟨some (o.extractLsb' 0 4), [], pos + 1⟩
    else if m = maxGrants then none
    else if o.getLsbD 7 then
      (walkRar maxGrants rest (pos + 1) (m + 1)).map fun h => { h with rapids := o.extractLsb' 0 6 :: h.rapids }
    else some ⟨none, [o.extractLsb' 0 6], pos + 1⟩

/-- The whole of a block of T bytes: nothing for T = 0; else the walk, with the payloads fitting behind it (R281). -/
def parseRar (maxGrants : Nat) (bytes : List Byte) : Option RarHeads :=
  if bytes.length = 0 then some ⟨none, [], 0⟩
  else
    match walkRar maxGrants bytes 0 0 with
    | none   => none
    | some h => if bytes.length < h.hlen + 6 * h.rapids.length then none else some h

/-- A RAR slot from a RAPID and the payload at the head of `bytes`: `p[46:36]`, `p[35:16]`, `p[15:0]`, p[47] ignored
(R281, 30_encoding R124). -/
def grantFrom (rapid : BitVec 6) (bytes : List Byte) : RSlot :=
  let p : BitVec 48 :=
    byteAt bytes 0 ++ byteAt bytes 1 ++ byteAt bytes 2 ++ byteAt bytes 3 ++ byteAt bytes 4 ++ byteAt bytes 5
  { populated := true, rapid := rapid, ta := p.extractLsb' 36 11, grant := p.extractLsb' 16 20,
    tc := p.extractLsb' 0 16 }

/-- The RAR slot file after the commit: grant j in slot j, its payload the j-th 6 octets of `bytes` (R281). -/
def commitGrants : List (BitVec 6) → List Byte → List RSlot → List RSlot
  | [], _, old => old
  | _ :: _, _, [] => []
  | r :: rs, bytes, _ :: old => grantFrom r bytes :: commitGrants rs (bytes.drop 6) old

/-- `corrupt` of RAR_PARSE (R281). -/
def rarCorrupt (s : State) : Result :=
  fail .errCorrupt
    { s with rcount := 0, hasBi := false, bi := 0, corrupt := true, mode := .rxParsed, iter := 0, cur := none }

/-- The commit of a successful RAR_PARSE (R281). -/
def rarCommit (bytes : List Byte) (h : RarHeads) (s : State) : Result :=
  doneWith [word h.rapids.length, if h.bi.isSome then 1 else 0]
    { s with rslots := commitGrants h.rapids (bytes.drop h.hlen) s.rslots, rcount := h.rapids.length,
             hasBi := h.bi.isSome, bi := h.bi.getD 0, corrupt := false, mode := .rxParsed, iter := 0, cur := none }

/-- RAR_PARSE (R281). -/
def execRarParse (s : State) : Result :=
  if !receiving .rar s then fail .errState s
  else
    orFault (memRead s.cfg s.rxbuf 0 s.totalLen) fun bytes =>
      match parseRar s.cfg.maxRarGrants bytes with
      | none   => rarCorrupt s
      | some h => rarCommit bytes h s

/-! ### RAR_ITER_NEXT, RAR_GET_GRANT, RAR_GET_BACKOFF -/

/-- HAS_BI as a number. -/
def biCount (s : State) : Nat := if s.hasBi then 1 else 0

/-- RAR_ITER_NEXT (R283). -/
def execRarIterNext (s : State) : Result :=
  if !parsed .rar s then fail .errState s
  else if biCount s + s.rcount ≤ s.iter then .next (s.withCode .iterEnd)
  else
    let j := s.iter
    let entry : List Word :=
      if s.hasBi && j == 0 then [(kindCode .rarBackoff).setWidth 32, s.bi.setWidth 32]
      else [(kindCode .rarGrant).setWidth 32, (rslotAt s (j - biCount s)).rapid.setWidth 32]
    doneWith (entry ++ [word j]) { s with cur := some j, iter := j + 1 }

/-- RAR_GET_GRANT (R284). -/
def execRarGetGrant (s : State) : Result :=
  if !parsed .rar s then fail .errState s
  else
    match s.cur with
    | none   => fail .errState s
    | some c =>
      if s.hasBi && c == 0 then fail .errState s
      else
        let g := rslotAt s (c - biCount s)
        doneWith [g.rapid.setWidth 32, g.ta.setWidth 32, g.grant.setWidth 32, g.tc.setWidth 32] s

/-- RAR_GET_BACKOFF (R285). -/
def execRarGetBackoff (s : State) : Result :=
  if !(s.ctype == .rar) || s.mode == .idle then fail .errState s
  else doneWith [if s.hasBi then 1 else 0, s.bi.setWidth 32] s

end Sys2Proof.Machine
end

