-- ==== Sys2Proof/Machine/Receive.lean ====
section
/-! DEFINITION. The general container, receive side: INIT_RX, PARSE, ITER_NEXT, GET_SDU (43_container_rx). -/

namespace Sys2Proof.Machine

/-- INIT_RX (R240). -/
def execInitRx (totalLength : Word) (s : State) : Result :=
  initCommand .general .rxReady false totalLength 0 s

/-! ### PARSE (R241 to R248) -/

/-- E[n] of R241: the class, LCID and payload length of one subheader. -/
structure Entry where
  cls  : LcidClass
  lcid : BitVec 5
  len  : Nat
deriving DecidableEq, Repr

/-- What the subheader walk finds: the entries in wire order and H, the number of subheader bytes. -/
structure Walk where
  entries : List Entry
  hlen    : Nat
deriving DecidableEq, Repr

/-- The walk with one more entry in front. -/
def Walk.push (w : Walk) (e : Entry) : Walk := { w with entries := e :: w.entries }

/-- What the bytes after a non-final subheader's first octet say: the payload length L, the subheader length h, and
the bytes after the subheader; none if a length octet is missing (R241). -/
def nonFinalLength (cls : LcidClass) (rest : List Byte) : Option (Nat × Nat × List Byte) :=
  match cls with
  | .sdu | .var _ =>
    match rest with
    | [] => none
    | o1 :: rest1 =>
      if !o1.getLsbD 7 then some ((o1.extractLsb' 0 7).toNat, 2, rest1)
      else
        match rest1 with
        | []          => none
        | o2 :: rest2 => some ((o1.extractLsb' 0 7 ++ o2).toNat, 3, rest2)
  | .fixed _ size   => some (size, 1, rest)
  | .pad            => some (0, 1, rest)
  | .reserved       => none

/-- The final subheader's payload length: CE_SIZE for a fixed-size CE, with the accounting exactly T; else the derived
length T - H - S, which must not be negative (R241, R243). -/
def finalLength (cls : LcidClass) (total hlen sum : Nat) : Option Nat :=
  match cls with
  | .fixed _ size => if hlen + sum + size = total then some size else none
  | .sdu | .var _ | .pad => if hlen + sum ≤ total then some (total - hlen - sum) else none
  | .reserved => none

/-- The loop of R241 over the bytes from `pos` on, with room for `room` more entries and payload lengths summing to
`sum` so far; none is `corrupt`. A reserved LCID is corrupt (R244), and so is one subheader too many (R245) and the
end of the block before a final subheader. -/
def walkSubheaders (c : Config) (total : Nat) : (room : Nat) → List Byte → (pos sum : Nat) → Option Walk
  | _, [], _, _ => none
  | 0, _ :: _, _, _ => none
  | room + 1, o :: rest, pos, sum =>
    let lcid := o.extractLsb' 0 5
    let cls := classOf c lcid
    if o.getLsbD 5 then
      match nonFinalLength cls rest with
      | none => none
      | some (len, h, rest') =>
        (walkSubheaders c total room rest' (pos + h) (sum + len)).map fun w => w.push ⟨cls, lcid, len⟩
    else
      match finalLength cls total (pos + 1) sum with
      | none     => none
      | some len => some ⟨[⟨cls, lcid, len⟩], pos + 1⟩

/-- The whole of a block of T bytes: zero entries for T = 0 (R246), else the walk from byte 0 with room for
MAX_SUBPDUS + 2 entries (R241, R245). -/
def parseBlock (c : Config) (bytes : List Byte) : Option Walk :=
  if bytes.length = 0 then some ⟨[], 0⟩
  else walkSubheaders c bytes.length (c.maxSubpdus + 2) bytes 0 0

/-- One slot as the commit writes it: kind, lcid, len, off and ce; the transmit-only fields keep their values
(R247; log 18). -/
def Entry.slot (e : Entry) (bytes : List Byte) (off : Nat) (old : Slot) : Slot :=
  { old with
    kind := e.cls.kind, lcid := e.lcid, len := e.len, off := off,
    ce := match e.cls with
          | .fixed _ _ => CeBytes.ofList ((bytes.drop off).take e.len)
          | .sdu | .var _ | .pad | .reserved => CeBytes.ofList [] }

/-- The slot file after the commit: entry j in slot j, payloads in subheader order from offset `off` (R247). -/
def commitEntries (bytes : List Byte) : List Entry → Nat → List Slot → List Slot
  | [], _, old => old
  | _ :: _, _, [] => []
  | e :: es, off, x :: old => e.slot bytes off x :: commitEntries bytes es (off + e.len) old

/-- `corrupt` of PARSE (R248). -/
def parseCorrupt (s : State) : Result :=
  fail .errCorrupt { s with count := 0, corrupt := true, mode := .rxParsed, iter := 0, cur := none }

/-- The commit of a successful PARSE (R247): COUNT <- n, for every n up to MAX_SUBPDUS + 2 (10_state R30, 92 D5; log 9). -/
def parseCommit (bytes : List Byte) (w : Walk) (s : State) : Result :=
  doneWith [word w.entries.length, word w.hlen]
    { s with slots := commitEntries bytes w.entries w.hlen s.slots, count := w.entries.length,
             corrupt := false, mode := .rxParsed, iter := 0, cur := none }

/-- PARSE (R241). -/
def execParse (s : State) : Result :=
  if !receiving .general s then fail .errState s
  else
    orFault (memRead s.cfg s.rxbuf 0 s.totalLen) fun bytes =>
      match parseBlock s.cfg bytes with
      | none   => parseCorrupt s
      | some w => parseCommit bytes w s

/-! ### ITER_NEXT and GET_SDU -/

/-- ITER_NEXT (R250). -/
def execIterNext (s : State) : Result :=
  if !parsed .general s then fail .errState s
  else if s.count ≤ s.iter then .next (s.withCode .iterEnd)
  else
    let k := s.iter
    let e := slotAt s k
    doneWith [(kindCode e.kind).setWidth 32, e.lcid.setWidth 32, word e.off, word e.len, word k]
      { s with cur := some k, iter := k + 1 }

/-- GET_SDU (R252). -/
def execGetSdu (s : State) : Result :=
  if !parsed .general s then fail .errState s
  else
    match s.cur with
    | none   => fail .errState s
    | some c =>
      if (slotAt s c).kind = .sdu then
        doneWith [word (slotAt s c).off, word (slotAt s c).len, (slotAt s c).lcid.setWidth 32] s
      else fail .errState s

end Sys2Proof.Machine
end

