-- ==== Sys2Proof/Machine/Dispatch.lean ====
section
/-! DEFINITION. exec: one arm per command, each one call of its meaning. -/

namespace Sys2Proof.Machine

-- The meaning of each command (30_encoding R91 names the rule of each).
def exec (i : Instr) (s : State) : Host.Outcome State Fault Refusal :=
  match i with
  | .initTx pad total => Sys2Proof.Machine.execInitTx pad total s
  | .initRx total => Sys2Proof.Machine.execInitRx total s
  | .append => Sys2Proof.Machine.execAppend s
  | .removeLast => Sys2Proof.Machine.execRemoveLast s
  | .serialize => Sys2Proof.Machine.execSerialize s
  | .parse => Sys2Proof.Machine.execParse s
  | .iterNext => Sys2Proof.Machine.execIterNext s
  | .setSdu lcid req => Sys2Proof.Machine.execSetSdu lcid req s
  | .setBsr fmt o0 o1 o2 o3 => Sys2Proof.Machine.execSetBsr fmt o0 o1 o2 o3 s
  | .setPhr db => Sys2Proof.Machine.execSetPhr db s
  | .setTa ta => Sys2Proof.Machine.execSetTa ta s
  | .setCrid crid => Sys2Proof.Machine.execSetCrid crid s
  | .setCrnti rnti => Sys2Proof.Machine.execSetCrnti rnti s
  | .setScell bitmap => Sys2Proof.Machine.execSetScell bitmap s
  | .getSdu => Sys2Proof.Machine.execGetSdu s
  | .getBsr => Sys2Proof.Machine.execGetBsr s
  | .getPhr => Sys2Proof.Machine.execGetPhr s
  | .getTa => Sys2Proof.Machine.execGetTa s
  | .getCrid => Sys2Proof.Machine.execGetCrid s
  | .getCrnti => Sys2Proof.Machine.execGetCrnti s
  | .getScell => Sys2Proof.Machine.execGetScell s
  | .getMchSched k => Sys2Proof.Machine.execGetMchSched k s
  | .rarInitTx total => Sys2Proof.Machine.execRarInitTx total s
  | .rarInitRx total => Sys2Proof.Machine.execRarInitRx total s
  | .rarAppend => Sys2Proof.Machine.execRarAppend s
  | .rarRemoveLast => Sys2Proof.Machine.execRarRemoveLast s
  | .rarSetBackoff bi => Sys2Proof.Machine.execRarSetBackoff bi s
  | .rarSetGrant rapid ta grant tc => Sys2Proof.Machine.execRarSetGrant rapid ta grant tc s
  | .rarSerialize => Sys2Proof.Machine.execRarSerialize s
  | .rarParse => Sys2Proof.Machine.execRarParse s
  | .rarIterNext => Sys2Proof.Machine.execRarIterNext s
  | .rarGetGrant => Sys2Proof.Machine.execRarGetGrant s
  | .rarGetBackoff => Sys2Proof.Machine.execRarGetBackoff s

end Sys2Proof.Machine
end

