-- ==== Sys2Proof/Machine/Port.lean ====
section
/-! DEFINITION. The host's side of the block: the register map (10_state R21), command assembly on CMD (10_state R47),
the host's accesses one by one (00_scope R14, 20_memory R72), and placing a command for the next step to run. -/

namespace Sys2Proof.Machine

/-! ### Register reads (10_state R21) -/

/-- NONE or an index as a register value: 0xFFFFFFFF encodes NONE. -/
def indexWord : Option Nat → Word
  | none   => 0xFFFFFFFF#32
  | some k => word k

/-- The COUNT register: the slot count of the active container (10_state R30, R41). -/
def countReg (s : State) : Nat := if s.ctype = .rar then s.rcount else s.count

/-- The SDU_SPACE register, signed (10_state R35). -/
def sduSpaceReg (s : State) : Word :=
  if building .general s then BitVec.ofInt 32 (sduRoom s) else 0#32

/-- The readable registers by word address (10_state R21). CMD reads 0. -/
def registerMap (s : State) : List (Word × Word) :=
  [ (0x00, 0), (0x04, statusWord s), (0x08, stateWord s), (0x0C, word (countReg s)), (0x10, word s.totalLen),
    (0x14, word s.remLen), (0x18, sduSpaceReg s), (0x1C, indexWord s.lastSdu), (0x20, word s.iter),
    (0x24, indexWord s.cur) ] ++
  [ (0x40, s.results.r0), (0x44, s.results.r1), (0x48, s.results.r2), (0x4C, s.results.r3), (0x50, s.results.r4),
    (0x54, s.results.r5), (0x58, s.results.r6), (0x5C, s.results.r7), (0x60, s.results.r8) ] ++
  [ (0x80, word s.cfg.maxSubpdus), (0x84, word s.cfg.maxTbBytes), (0x88, word s.cfg.maxRarGrants),
    (0x8C, word s.cfg.bsIdx63Value) ]

/-- What a host read of a register address returns; an address not listed reads 0 (log 20). -/
def readRegister (s : State) (addr : Word) : Word := ((registerMap s).lookup addr).getD 0#32

/-- What a host read of TXBUF[i] returns, none outside the buffer (20_memory R72): the byte it holds, but a free value in
TX_BUILD, where no rule promises one (20_memory R82; log 12). -/
def hostReadTx (s : State) (i : Nat) : Option Byte :=
  if i < s.cfg.maxTbBytes then
    some (if s.mode = .txBuild then freeTxByte s.draws s.count s.remLen i else s.txbuf.read i)
  else none

/-- What a host read of RXBUF[i] returns, none outside the buffer (20_memory R72). -/
def hostReadRx (s : State) (i : Nat) : Option Byte := if i < s.cfg.maxTbBytes then some (s.rxbuf.read i) else none

/-! ### Command assembly (10_state R47, 30_encoding R90) -/

/-- The words of a command: an illegal one ends with ERR_ILLEGAL and changes nothing else (30_encoding R92, R93), a
legal one executes. -/
def runCommand (words : List Word) (s : State) : Result :=
  match decode words with
  | .ok i      => exec i s
  | .illegal _ => fail .errIllegal s

/-- PEND_OPS as a list, W1 first. -/
def PendOps.toList (p : PendOps) : List Word := [p.w1, p.w2, p.w3, p.w4]

/-- PEND_OPS with operand word j (from 0) received. -/
def PendOps.put (p : PendOps) (j : Nat) (w : Word) : PendOps :=
  match j with
  | 0 => { p with w1 := w }
  | 1 => { p with w2 := w }
  | 2 => { p with w3 := w }
  | 3 => { p with w4 := w }
  | _ => p

/-- A write to CMD with PEND = 0: word 0 of a command (10_state R47). -/
def cmdWord0 (w : Word) (s : State) : Result :=
  if operandWords w = 0 then runCommand [w] s
  else .next { s with pend := true, pendWord0 := w, pendLeft := operandWords w }

/-- A write to CMD with PEND = 1: the next operand word; the command executes when none is due any more
(10_state R47). -/
def cmdOperand (w : Word) (s : State) : Result :=
  let nw := operandWords s.pendWord0
  let ops := s.pendOps.put (nw - s.pendLeft) w
  if s.pendLeft ≤ 1 then
    runCommand (s.pendWord0 :: ops.toList.take nw) { s with pend := false, pendLeft := 0, pendOps := ops }
  else .next { s with pendLeft := s.pendLeft - 1, pendOps := ops }

/-- A write to the CMD register. -/
def writeCmd (w : Word) (s : State) : Result := if s.pend then cmdOperand w s else cmdWord0 w s

/-! ### The host's accesses -/

/-- Reset (70_reset_and_hazards R330): every piece of the block's state as after reset with the draw `d`; the instance's
parameters and the inputs still to come stay (log 13). -/
def State.resetBlock (s : State) (d : ResetDraw) : State :=
  { State.resetOf s.cfg d with hostq := s.hostq, source := s.source, draws := s.draws }

/-- One access of the host. A register write reaches only CMD: a write to a read-only or unlisted address is ignored
(10_state R21, R22). A read has no side effect (10_state R22, 20_memory R72). A buffer index outside the buffer does
not exist (log 7). -/
def hostAccess (a : HostAccess) (s : State) : Result :=
  match a with
  | .writeReg addr w => if addr = 0#32 then writeCmd w s else .next s
  | .readReg _       => .next s
  | .writeRx i b     => orFault (memWrite s.cfg s.rxbuf i [b]) fun m => .next { s with rxbuf := m }
  | .readRx i        => orFault (hostReadRx s i) fun _ => .next s
  | .readTx i        => orFault (hostReadTx s i) fun _ => .next s
  | .reset d         => .next (s.resetBlock d)

/-- One step: the oldest access the host has still to make; with none, the block does nothing (70 R332; log 4). -/
def hostStep (s : State) : Result :=
  match s.hostq with
  | []        => .next s
  | a :: rest => hostAccess a { s with hostq := rest }

/-! ### Placing a command -/

/-- PEND_OPS holding the operand words of a list, in order. -/
def PendOps.ofList (ws : List Word) : PendOps :=
  { w1 := ws.getD 0 0, w2 := ws.getD 1 0, w3 := ws.getD 2 0, w4 := ws.getD 3 0 }

/-- The state in which the host has written all words of the command but the last, and makes the write of the last
one next: the very next step executes the command (log 4). -/
def placeCommand (words : List Word) (s : State) : State :=
  match words with
  | [] => s
  | [w0] => { s with pend := false, pendLeft := 0, hostq := .writeReg 0 w0 :: s.hostq }
  | w0 :: ops =>
    { s with pend := true, pendWord0 := w0, pendLeft := 1, pendOps := PendOps.ofList ops,
             hostq := .writeReg 0 (ops.getLastD 0) :: s.hostq }

end Sys2Proof.Machine
end

