-- ==== Sys2Proof/Machine/Step.lean ====
section
/-! DEFINITION. One step of the machine: one access of the host (log 4). -/

namespace Sys2Proof.Machine

/-- One step: the host's next access, and the command it completes, if it completes one (00_scope R16,
10_state R47). -/
def step (s : State) : Host.Outcome State Fault Refusal := Sys2Proof.Machine.hostStep s

/-- `s` with the command of a table word placed so that the next step runs it (log 4). -/
def State.withFetchWord (s : State) (nbits w : Nat) : State :=
  Sys2Proof.Machine.placeCommand (Sys2Proof.tableWords nbits w) s

end Sys2Proof.Machine
end

