-- ==== Sys2Proof/Machine/Asm.lean ====
section
/-! DEFINITION. The assembler syntax of 30_encoding R96: a mnemonic and its operands in R96's order. The text is the
mnemonic, then the operands with commas between them. -/

namespace Sys2Proof

/-- One written operand: an integer, or the name of a BSR format. -/
inductive AsmOperand where
  | num (n : Int)
  | short | long | trunc
deriving DecidableEq, Repr

/-- A written command. -/
structure AsmLine where
  mnemonic : String
  operands : List AsmOperand
deriving DecidableEq, Repr

/-- An operand whose value is the unsigned bits. -/
def asmBits {w : Nat} (v : BitVec w) : AsmOperand := .num v.toNat

/-- How a command is written (R96). A SET_BSR with fmt = 3 has no written form. -/
def disassemble : Instr → Option AsmLine
  | .initTx pad total           => some ⟨"INIT_TX", [asmBits total, .num (if pad then 1 else 0)]⟩
  | .initRx total               => some ⟨"INIT_RX", [asmBits total]⟩
  | .append                     => some ⟨"APPEND", []⟩
  | .removeLast                 => some ⟨"REMOVE_LAST", []⟩
  | .serialize                  => some ⟨"SERIALIZE", []⟩
  | .parse                      => some ⟨"PARSE", []⟩
  | .iterNext                   => some ⟨"ITER_NEXT", []⟩
  | .setSdu lcid req            => some ⟨"SET_SDU", [asmBits lcid, asmBits req]⟩
  | .setBsr fmt o0 o1 o2 o3     =>
    let rest := [asmBits o0, asmBits o1, asmBits o2, asmBits o3]
    if fmt = 0 then some ⟨"SET_BSR", .short :: rest⟩
    else if fmt = 1 then some ⟨"SET_BSR", .long :: rest⟩
    else if fmt = 2 then some ⟨"SET_BSR", .trunc :: rest⟩
    else none
  | .setPhr db                  => some ⟨"SET_PHR", [.num db.toInt]⟩
  | .setTa ta                   => some ⟨"SET_TA", [asmBits ta]⟩
  | .setCrid crid               => some ⟨"SET_CRID", [asmBits crid]⟩
  | .setCrnti rnti              => some ⟨"SET_CRNTI", [asmBits rnti]⟩
  | .setScell bitmap            => some ⟨"SET_SCELL", [asmBits bitmap]⟩
  | .getSdu                     => some ⟨"GET_SDU", []⟩
  | .getBsr                     => some ⟨"GET_BSR", []⟩
  | .getPhr                     => some ⟨"GET_PHR", []⟩
  | .getTa                      => some ⟨"GET_TA", []⟩
  | .getCrid                    => some ⟨"GET_CRID", []⟩
  | .getCrnti                   => some ⟨"GET_CRNTI", []⟩
  | .getScell                   => some ⟨"GET_SCELL", []⟩
  | .getMchSched k              => some ⟨"GET_MCH_SCHED", [asmBits k]⟩
  | .rarInitTx total            => some ⟨"RAR_INIT_TX", [asmBits total]⟩
  | .rarInitRx total            => some ⟨"RAR_INIT_RX", [asmBits total]⟩
  | .rarAppend                  => some ⟨"RAR_APPEND", []⟩
  | .rarRemoveLast              => some ⟨"RAR_REMOVE_LAST", []⟩
  | .rarSetBackoff bi           => some ⟨"RAR_SET_BACKOFF", [asmBits bi]⟩
  | .rarSetGrant rapid ta gr tc => some ⟨"RAR_SET_GRANT", [asmBits rapid, asmBits ta, asmBits gr, asmBits tc]⟩
  | .rarSerialize               => some ⟨"RAR_SERIALIZE", []⟩
  | .rarParse                   => some ⟨"RAR_PARSE", []⟩
  | .rarIterNext                => some ⟨"RAR_ITER_NEXT", []⟩
  | .rarGetGrant                => some ⟨"RAR_GET_GRANT", []⟩
  | .rarGetBackoff              => some ⟨"RAR_GET_BACKOFF", []⟩

/-- An operand read into w unsigned bits, none if it does not fit (log 19). -/
def asmUnsigned (w : Nat) : AsmOperand → Option (BitVec w)
  | .num n                => if 0 ≤ n ∧ n < 2 ^ w then some (BitVec.ofInt w n) else none
  | .short | .long | .trunc => none

/-- SET_PHR's signed 16-bit operand, none if it does not fit (log 19). -/
def asmSigned16 : AsmOperand → Option (BitVec 16)
  | .num n                => if -32768 ≤ n ∧ n ≤ 32767 then some (BitVec.ofInt 16 n) else none
  | .short | .long | .trunc => none

/-- SET_BSR's format operand, written SHORT, LONG or TRUNC. -/
def asmFormat : AsmOperand → Option (BitVec 2)
  | .short => some 0
  | .long  => some 1
  | .trunc => some 2
  | .num _ => none

/-- The command without operands that a mnemonic names. -/
def assembleBare (m : String) : Option Instr :=
  [("APPEND", Instr.append), ("REMOVE_LAST", .removeLast), ("SERIALIZE", .serialize), ("PARSE", .parse),
   ("ITER_NEXT", .iterNext), ("GET_SDU", .getSdu), ("GET_BSR", .getBsr), ("GET_PHR", .getPhr), ("GET_TA", .getTa),
   ("GET_CRID", .getCrid), ("GET_CRNTI", .getCrnti), ("GET_SCELL", .getScell), ("RAR_APPEND", .rarAppend),
   ("RAR_REMOVE_LAST", .rarRemoveLast), ("RAR_SERIALIZE", .rarSerialize), ("RAR_PARSE", .rarParse),
   ("RAR_ITER_NEXT", .rarIterNext), ("RAR_GET_GRANT", .rarGetGrant), ("RAR_GET_BACKOFF", .rarGetBackoff)].lookup m

/-- The command a written line stands for (R96), none for a line R96 does not give. -/
def assemble (l : AsmLine) : Option Instr :=
  match l.operands with
  | [] => assembleBare l.mnemonic
  | [x] =>
    if l.mnemonic = "INIT_RX" then (asmUnsigned 32 x).map .initRx
    else if l.mnemonic = "RAR_INIT_TX" then (asmUnsigned 32 x).map .rarInitTx
    else if l.mnemonic = "RAR_INIT_RX" then (asmUnsigned 32 x).map .rarInitRx
    else if l.mnemonic = "SET_PHR" then (asmSigned16 x).map .setPhr
    else if l.mnemonic = "SET_TA" then (asmUnsigned 6 x).map .setTa
    else if l.mnemonic = "SET_CRID" then (asmUnsigned 48 x).map .setCrid
    else if l.mnemonic = "SET_CRNTI" then (asmUnsigned 16 x).map .setCrnti
    else if l.mnemonic = "SET_SCELL" then (asmUnsigned 32 x).map .setScell
    else if l.mnemonic = "GET_MCH_SCHED" then (asmUnsigned 16 x).map .getMchSched
    else if l.mnemonic = "RAR_SET_BACKOFF" then (asmUnsigned 4 x).map .rarSetBackoff
    else none
  | [x, y] =>
    if l.mnemonic = "INIT_TX" then
      match asmUnsigned 32 x, asmUnsigned 1 y with
      | some total, some pad => some (.initTx (pad == 1) total)
      | _, _ => none
    else if l.mnemonic = "SET_SDU" then
      match asmUnsigned 5 x, asmUnsigned 32 y with
      | some lcid, some req => some (.setSdu lcid req)
      | _, _ => none
    else none
  | [x, y, z, u] =>
    if l.mnemonic = "RAR_SET_GRANT" then
      match asmUnsigned 6 x, asmUnsigned 11 y, asmUnsigned 20 z, asmUnsigned 16 u with
      | some rapid, some ta, some gr, some tc => some (.rarSetGrant rapid ta gr tc)
      | _, _, _, _ => none
    else none
  | [f, x, y, z, u] =>
    if l.mnemonic = "SET_BSR" then
      match asmFormat f, asmUnsigned 32 x, asmUnsigned 32 y, asmUnsigned 32 z, asmUnsigned 32 u with
      | some fmt, some o0, some o1, some o2, some o3 => some (.setBsr fmt o0 o1 o2 o3)
      | _, _, _, _, _ => none
    else none
  | _ => none

/-- An operand as written, integers in decimal. -/
def AsmOperand.text : AsmOperand → String
  | .num n => toString n
  | .short => "SHORT"
  | .long  => "LONG"
  | .trunc => "TRUNC"

/-- The text of a line: the mnemonic, then the operands comma-separated (R96). -/
def AsmLine.text (l : AsmLine) : String :=
  if l.operands.isEmpty then l.mnemonic
  else l.mnemonic ++ " " ++ String.intercalate ", " (l.operands.map AsmOperand.text)

end Sys2Proof
end

