-- ==== Sys2Proof/Machine/Pseudo.lean ====
section
/-! DEFINITION. The host-side pseudo-commands of 30_encoding R97. They are no opcodes: each is the sequence of commands
R97 expands it to, with the host's branch on STATUS and RESULT0. -/

namespace Sys2Proof.Machine

/-- Runs the next command of a host sequence, unless the one before stopped. -/
def thenRun (r : Result) (k : State → Result) : Result :=
  match r with
  | .next s    => k s
  | .fault f   => .fault f
  | .refused f => .refused f

/-- `ADD_SDU lcid, n`: APPEND; SET_SDU lcid, n; REMOVE_LAST when SET_SDU ends with a code other than OK or with
RESULT0 = 0 (R97). -/
def addSdu (lcid : BitVec 5) (n : Word) (s : State) : Result :=
  thenRun (exec .append s) fun s1 =>
    thenRun (exec (.setSdu lcid n) s1) fun s2 =>
      if s2.code ≠ .ok ∨ s2.results.r0 = 0 then exec .removeLast s2 else .next s2

/-- `ADD_CE <set-command>`: APPEND; the set command; REMOVE_LAST when it ends with a code other than OK (R97). -/
def addCe (setCommand : Instr) (s : State) : Result :=
  thenRun (exec .append s) fun s1 =>
    thenRun (exec setCommand s1) fun s2 =>
      if s2.code ≠ .ok then exec .removeLast s2 else .next s2

end Sys2Proof.Machine
end

