-- ==== Sys2Proof/Safety.lean ====
section
/-! DEFINITION. What a state of a run satisfies (the invariant RunInv), what a host may ask, and the terms the statements
are written in. -/

namespace Sys2Proof.Machine

/-! ### Parts of the invariant -/

/-- The number of entries of the active container: what ITER counts up to (43_container_rx R250, 44_rar R283). -/
def entryCount (s : State) : Nat := if s.ctype = .rar then biCount s + s.rcount else s.count

/-- The parameters are legal (00_scope R7), the slot files have their sizes (10_state R37, R42). -/
abbrev FilesOk (s : State) : Prop :=
  s.cfg.ok = true ∧ s.slots.length = s.cfg.maxSubpdus + 2 ∧ s.rslots.length = s.cfg.maxRarGrants

/-- A buffer is in its canonical form and lists no index at or beyond MAX_TB_BYTES (20_memory R71). -/
abbrev BufferOk (c : Config) (m : Memory) : Prop := m.wf = true ∧ m.below c.maxTbBytes = true

/-- All three buffers (20_memory R70). -/
abbrev BuffersOk (s : State) : Prop := BufferOk s.cfg s.txbuf ∧ BufferOk s.cfg s.rxbuf ∧ BufferOk s.cfg s.sdubuf

/-- The bounds of 10_state R27, R28, R30 and R41, and RCOUNT's 8 bits (R41). COUNT's bound keeps it in 8 bits too, unless
MAX_SUBPDUS is 254 or 255 (log 9). -/
abbrev BoundsOk (s : State) : Prop :=
  s.totalLen ≤ s.cfg.maxTbBytes ∧ s.remLen ≤ s.totalLen ∧ s.count ≤ s.cfg.maxSubpdus + 2 ∧
  s.rcount ≤ s.cfg.maxRarGrants ∧ s.rcount < 2 ^ 8

/-- CUR names the entry before ITER, and neither passes the last entry (10_state R33, R34). -/
abbrev CursorOk (s : State) : Prop :=
  (s.iter = 0 ∧ s.cur = none) ∨
  (s.mode = .rxParsed ∧ 0 < s.iter ∧ s.iter ≤ entryCount s ∧ s.cur = some (s.iter - 1))

/-- The container that is not active is empty (every INIT clears both), and BI is 0 without a backoff indicator
(10_state R25, R40). -/
abbrev InactiveOk (s : State) : Prop :=
  (s.ctype = .general → s.rcount = 0 ∧ s.hasBi = false) ∧
  (s.ctype = .rar → s.count = 0 ∧ s.lastSdu = none ∧ s.sduFill = 0 ∧ s.padPolicy = false) ∧
  (s.hasBi = false → s.bi = 0)

/-- CORRUPT = 1 only in a parsed, empty container (10_state R32, 43_container_rx R248). -/
abbrev CorruptOk (s : State) : Prop := s.corrupt = true → s.mode = .rxParsed ∧ entryCount s = 0

/-- Operand words are due exactly while PEND = 1, at most as many as the pending command has (10_state R47). -/
abbrev AssemblyOk (s : State) : Prop :=
  (s.pend = false ∧ s.pendLeft = 0) ∨
  (s.pend = true ∧ 1 ≤ s.pendLeft ∧ s.pendLeft ≤ operandWords s.pendWord0)

/-! ### The transmit ledger (41_container_tx R163, R172) -/

/-- REM_LEN, LAST_SDU and SDU_FILL at one moment of a build. -/
structure Ledger where
  rem  : Nat
  last : Option Nat
  fill : Nat
deriving DecidableEq, Repr

/-- The ledger when slot k was claimed: its snapshot for k < COUNT, the registers themselves for k = COUNT. -/
def ledgerAt (s : State) (k : Nat) : Ledger :=
  if k < s.count then ⟨(slotAt s k).remBefore, (slotAt s k).lastBefore, (slotAt s k).fillBefore⟩
  else ⟨s.remLen, s.lastSdu, s.sduFill⟩

/-- What the header of a ledger's last SDU grows by when another SDU follows it. -/
def growthAt (s : State) (b : Ledger) : Nat :=
  match b.last with
  | none   => 0
  | some j => hsize (slotAt s j).len - 1

/-- Slot k of a build is EMPTY and the last one, or an SDU or a fixed-size CE of the direction, and the ledgers before
and after it differ by what it was charged (R163, R166, 42_control_elements R201). -/
def txSlotOk (s : State) (k : Nat) : Bool :=
  let x := slotAt s k
  let b := ledgerAt s k
  let a := ledgerAt s (k + 1)
  if x.kind = .empty then k + 1 == s.count && a == b
  else if x.kind = .sdu then
    isSduLcid s.cfg x.lcid && decide (1 ≤ x.len ∧ x.len ≤ 32767) && x.off == b.fill &&
    a.rem + (x.len + 1 + growthAt s b) == b.rem && a.last == some k && a.fill == b.fill + x.len
  else
    x.kind.isCe &&
    (match kindRow s.cfg x.kind with
     | some r => r.size == some x.len && r.lcid == x.lcid
     | none   => false) &&
    a.rem + (x.len + 1) == b.rem && a.last == b.last && a.fill == b.fill

/-- A general build: at most MAX_SUBPDUS slots, a ledger that starts at TOTAL_LEN, and every slot accounted for. -/
abbrev TxOk (s : State) : Prop :=
  building .general s = true →
    s.count ≤ s.cfg.maxSubpdus ∧ ledgerAt s 0 = ⟨s.totalLen, none, 0⟩ ∧ ∀ k < s.count, txSlotOk s k = true

/-- A parsed general container: each entry has the kind its LCID has under DIR, a fixed-size CE its size, and a payload
inside the block (43_container_rx R242, R247). -/
def rxSlotOk (s : State) (x : Slot) : Bool :=
  x.kind != .empty && x.kind == (classOf s.cfg x.lcid).kind &&
  (match classOf s.cfg x.lcid with
   | .fixed _ n => x.len == n
   | _          => true) &&
  decide (x.off + x.len ≤ s.totalLen)

abbrev RxOk (s : State) : Prop := parsed .general s = true → ∀ k < s.count, rxSlotOk s (slotAt s k) = true

/-- The number of populated RAR slots in use. -/
def populatedGrants (s : State) : Nat := ((rslotsInUse s).filter fun g => g.populated).length

/-- A RAR build: the budget of 44_rar R270, and only the last slot may be unpopulated (R271). -/
abbrev RarTxOk (s : State) : Prop :=
  building .rar s = true →
    s.remLen + biCount s + 7 * populatedGrants s = s.totalLen ∧
    ∀ k < s.rcount, k + 1 < s.rcount → (rslotAt s k).populated = true

/-- A parsed RAR container: every slot in use is populated (44_rar R281). -/
abbrev RarRxOk (s : State) : Prop :=
  parsed .rar s = true → ∀ k < s.rcount, (rslotAt s k).populated = true

/-- The invariant of every run. -/
def RunInv (s : State) : Prop :=
  FilesOk s ∧ BuffersOk s ∧ BoundsOk s ∧ CursorOk s ∧ InactiveOk s ∧ CorruptOk s ∧ AssemblyOk s ∧ TxOk s ∧ RxOk s ∧
  RarTxOk s ∧ RarRxOk s

/-- The same, as a check to evaluate (`runInv_iff_check` in Laws). -/
def runInvCheck (s : State) : Bool :=
  decide (FilesOk s) && decide (BuffersOk s) && decide (BoundsOk s) && decide (CursorOk s) && decide (InactiveOk s) &&
  decide (CorruptOk s) && decide (AssemblyOk s) && decide (TxOk s) && decide (RxOk s) && decide (RarTxOk s) &&
  decide (RarRxOk s)

/-- The host's buffer accesses stay in the buffers (20_memory R71, R72). -/
def hostAccessOk (c : Config) : HostAccess → Bool
  | .writeRx i _ | .readRx i | .readTx i => decide (i < c.maxTbBytes)
  | .writeReg _ _ | .readReg _ | .reset _ => true

/-! ### Terms of the statements -/

/-- cost(k) of 41_container_tx R172: what slot k takes of TOTAL_LEN while the build goes on. -/
def slotCost (s : State) (k : Nat) : Nat :=
  let x := slotAt s k
  if x.kind = .empty then 0
  else if x.kind = .sdu then
    if s.lastSdu = some k then x.len + 1 else x.len + hsize x.len
  else 1 + ceSize s.cfg x.kind

/-- The SDU payloads of a build as SDUBUF holds them, in insertion order (41_container_tx R176). -/
def stagedPayloads (s : State) : List Byte :=
  (sduSlots s).flatMap fun x => s.sdubuf.readN x.off x.len

/-- The kind and payload a SET_ CE command encodes (42_control_elements R202 to R209); none for other commands and for
SET_BSR with fmt = 3. -/
def ceCommand : Instr → Option (Kind × List Byte)
  | .setBsr fmt o0 o1 o2 o3 => (bsrKind fmt).map fun k => (k, bsrPayload k o0 o1 o2 o3)
  | .setPhr db     => some (.phr, phrPayload db)
  | .setTa ta      => some (.ta, taPayload ta)
  | .setCrid crid  => some (.crid, octets crid 6)
  | .setCrnti rnti => some (.crnti, octets rnti 2)
  | .setScell b    => some (scellForm b)
  | _              => none

/-- The codes a command can end with (60_exceptions R304). -/
def endCodes : Instr → List Status
  | .initTx _ _ | .initRx _ | .rarInitTx _ | .rarInitRx _ => [.ok, .errIllegal]
  | .append | .rarAppend => [.ok, .errIllegal, .errState, .errCapacity]
  | .removeLast | .rarRemoveLast => [.ok, .errIllegal, .errState]
  | .setSdu _ _ => [.ok, .errIllegal, .errState, .errDirection, .errCapacity, .errSource]
  | .setBsr _ _ _ _ _ | .setPhr _ | .setTa _ | .setCrid _ | .setCrnti _ | .setScell _ =>
    [.ok, .errIllegal, .errState, .errDirection, .errCapacity]
  | .serialize | .rarSerialize => [.ok, .errIllegal, .errState, .errSerialize]
  | .parse | .rarParse => [.ok, .errIllegal, .errState, .errCorrupt]
  | .iterNext | .rarIterNext => [.ok, .errIllegal, .errState, .iterEnd]
  | .getSdu | .getBsr | .getPhr | .getTa | .getCrid | .getCrnti | .getScell | .rarGetGrant | .rarGetBackoff =>
    [.ok, .errIllegal, .errState]
  | .getMchSched _ => [.ok, .errIllegal, .errState]
  | .rarSetBackoff _ | .rarSetGrant _ _ _ _ => [.ok, .errIllegal, .errState, .errCapacity]

/-- The commands that read an entry and change nothing but RESULT and STATUS (42_control_elements R211, 43_container_rx
R252, 44_rar R284, R285). -/
def isGetter : Instr → Bool
  | .getSdu | .getBsr | .getPhr | .getTa | .getCrid | .getCrnti | .getScell | .getMchSched _ | .rarGetGrant
  | .rarGetBackoff => true
  | _ => false

/-- The kinds a general GET_ command decodes (42_control_elements R212 to R218, 43_container_rx R252); none for the other
commands. -/
def decodedKinds : Instr → Option (List Kind)
  | .getSdu        => some [.sdu]
  | .getBsr        => some [.shortBsr, .longBsr, .truncBsr]
  | .getPhr        => some [.phr]
  | .getTa         => some [.ta]
  | .getCrid       => some [.crid]
  | .getCrnti      => some [.crnti]
  | .getScell      => some [.scell1, .scell4]
  | .getMchSched _ => some [.mchSched]
  | _              => none

/-- The four INIT commands (70_reset_and_hazards R335). -/
def isInit : Instr → Bool
  | .initTx _ _ | .initRx _ | .rarInitTx _ | .rarInitRx _ => true
  | _ => false

/-- The commands that store to a buffer: SET_SDU to SDUBUF, the serializes to TXBUF (20_memory R70, R82). -/
def storesToBuffer : Instr → Bool
  | .setSdu _ _ | .serialize | .rarSerialize => true
  | _ => false

/-- Every byte of the three buffers reads the same. -/
abbrev SameBuffers (s t : State) : Prop :=
  ∀ a, t.txbuf.read a = s.txbuf.read a ∧ t.rxbuf.read a = s.rxbuf.read a ∧ t.sdubuf.read a = s.sdubuf.read a

/-! ### Conditions the rules name -/

/-- CTYPE = 0 and MODE = TX_BUILD. -/
abbrev GeneralBuild (s : State) : Prop := s.ctype = .general ∧ s.mode = .txBuild

/-- CTYPE = 1 and MODE = TX_BUILD. -/
abbrev RarBuild (s : State) : Prop := s.ctype = .rar ∧ s.mode = .txBuild

/-- CTYPE = 0 and MODE = RX_PARSED. -/
abbrev GeneralParsed (s : State) : Prop := s.ctype = .general ∧ s.mode = .rxParsed

/-- CTYPE = 1 and MODE = RX_PARSED. -/
abbrev RarParsed (s : State) : Prop := s.ctype = .rar ∧ s.mode = .rxParsed

/-- The last slot is there and EMPTY. -/
abbrev LastEmpty (s : State) : Prop := 0 < s.count ∧ (slotAt s (s.count - 1)).kind = .empty

/-- The last RAR slot is there and unpopulated. -/
abbrev LastUnpopulated (s : State) : Prop := 0 < s.rcount ∧ (rslotAt s (s.rcount - 1)).populated = false

/-- CUR names entry c of a parsed general container. -/
abbrev CurrentEntry (s : State) (c : Nat) : Prop := GeneralParsed s ∧ s.cur = some c

/-- The command ends with CODE and changes nothing else (00_scope R11, `fail CODE`). -/
abbrev OnlyEndsWith (i : Instr) (s : State) (c : Status) : Prop := exec i s = .next { s with code := c }

/-- An outcome with its next state changed by f. -/
def mapNext (f : State → State) : Result → Result
  | .next t    => .next (f t)
  | .fault r   => .fault r
  | .refused r => .refused r

/-- The assigned opcodes of 30_encoding R91. -/
def assignedOpcodes : List (BitVec 8) :=
  [0x01, 0x02, 0x03, 0x04, 0x05, 0x06, 0x07, 0x10, 0x11, 0x12, 0x13, 0x14, 0x15, 0x16, 0x20, 0x21, 0x22, 0x23, 0x24,
   0x25, 0x26, 0x27] ++
  [0x30, 0x31, 0x32, 0x33, 0x34, 0x35, 0x36, 0x37, 0x38, 0x39, 0x3A]

/-- The settable kinds of each direction, as 42_control_elements R200 lists them. -/
def settableKinds : Dir → List Kind
  | .dl  => [.ta, .crid, .scell1, .scell4]
  | .ul  => [.shortBsr, .longBsr, .truncBsr, .phr, .crnti]
  | .mch => []

/-- The command encodes `payload` as a CE of `kind`: the common checks in order, then reserve_ce
(42_control_elements R200, R201). A kind is settable when the direction's LCID table has a row for it, which under the
default table is R200's list; `row` is that row, and its size is CE_SIZE(kind). -/
def SetsCe (i : Instr) (kind : Kind) (payload : List Byte) (s : State) : Prop :=
  (s.cfg.lcid = defaultLcidTable → ((kindRow s.cfg kind).isSome = true ↔ kind ∈ settableKinds s.cfg.dir)) ∧
  (¬ GeneralBuild s → OnlyEndsWith i s .errState) ∧
  (GeneralBuild s → ¬ LastEmpty s → OnlyEndsWith i s .errState) ∧
  (GeneralBuild s → LastEmpty s → kindRow s.cfg kind = none → OnlyEndsWith i s .errDirection) ∧
  (∀ row, GeneralBuild s → LastEmpty s → kindRow s.cfg kind = some row →
    row.size = some payload.length ∧
    (s.remLen < payload.length + 1 → OnlyEndsWith i s .errCapacity) ∧
    (payload.length + 1 ≤ s.remLen →
      exec i s = .next
        { s with slots := s.slots.set (s.count - 1)
                   { slotAt s (s.count - 1) with kind := kind, lcid := BitVec.ofNat 5 row.lo, len := payload.length,
                                                 ce := CeBytes.ofList payload },
                 remLen := s.remLen - (payload.length + 1), code := .ok }))

/-- The common checks of a GET_ command that decodes `kinds`, in order (42_control_elements R211). -/
def GetterChecks (i : Instr) (kinds : List Kind) (s : State) : Prop :=
  (¬ GeneralParsed s → OnlyEndsWith i s .errState) ∧
  (GeneralParsed s → s.cur = none → OnlyEndsWith i s .errState) ∧
  (∀ c, CurrentEntry s c → (slotAt s c).kind ∉ kinds → OnlyEndsWith i s .errState)

/-- sel_group of 42_control_elements R203, said of its result: group g with occupancy `occ` is the highest-numbered
group with a nonzero occupancy, or group 0 when every occupancy is 0. -/
def IsSelectedGroup (occs : List Word) (g : BitVec 2) (occ : Word) : Prop :=
  occs[g.toNat]? = some occ ∧ (∀ j x, g.toNat < j → occs[j]? = some x → x = 0) ∧ (occ = 0 → g = 0)

/-- What 43_container_rx R251 compares of an entry: kind, LCID, length and payload bytes. A fixed-size CE's payload is in
its ce field; an SDU's is in the buffer `m` at its offset. -/
def entryView (m : Memory) (x : Slot) : Kind × BitVec 5 × Nat × List Byte :=
  (x.kind, x.lcid, x.len, if x.kind = .sdu then m.readN x.off x.len else x.ce.toList.take x.len)

/-- The build has no EMPTY slot (41_container_tx R170). -/
abbrev AllPopulated (s : State) : Prop := ∀ x ∈ slotsInUse s, x.kind ≠ .empty

/-- OUT of 41_container_tx R176: subheaders, CE payloads, SDU payloads, zeros. -/
def blockBytes (s : State) : List Byte :=
  headerBytes (subEntries s) ++
  ((ceSlots s).flatMap fun x => x.ce.toList.take (ceSize s.cfg x.kind)) ++
  stagedPayloads s ++
  List.replicate (padZeros s) 0#8

/-- The staged payloads lie inside SDUBUF (20_memory R71). -/
abbrev StagedInside (s : State) : Prop := ∀ x ∈ sduSlots s, 0 < x.len → x.off + x.len ≤ s.cfg.maxTbBytes

/-- `m` is `old` with `bytes` written from index `a`: every other byte reads as before. -/
abbrev WrittenAt (old m : Memory) (a : Nat) (bytes : List Byte) : Prop :=
  ∀ x, m.read x = if a ≤ x ∧ x < a + bytes.length then bytes.getD (x - a) 0 else old.read x

/-! ### The wire grammar of a received block -/

/-- The classes whose non-final subheader has a length field (30_encoding R99). -/
def HasLengthField (cls : LcidClass) : Prop := cls = .sdu ∨ ∃ k, cls = .var k

/-- `hdr` is a subheader of entry `e` (30_encoding R98 to R104): E = 0 on the final one; after a non-final SDU or
variable-length CE the 2-byte form, whose length octet is below 128, or the 3-byte form; one byte otherwise. The R bits
are free. -/
def SubheaderOf (e : Entry) (final : Bool) (hdr : List Byte) : Prop :=
  ∃ o rest, hdr = o :: rest ∧ o.extractLsb' 0 5 = e.lcid ∧ o.getLsbD 5 = !final ∧
    (final = false ∧ HasLengthField e.cls →
      (∃ l : Byte, rest = [l] ∧ l.toNat < 128 ∧ e.len = l.toNat) ∨
      (∃ h l : Byte, rest = [h, l] ∧ 128 ≤ h.toNat ∧ e.len = (h.toNat - 128) * 256 + l.toNat)) ∧
    (¬(final = false ∧ HasLengthField e.cls) → rest = [])

/-- The entry's class is the one its LCID has, not RESERVED, and its length is the one its class fixes: CE_SIZE, and 0
for padding that is not final (43_container_rx R241, R242). -/
def EntryFits (c : Config) (e : Entry) (final : Bool) : Prop :=
  e.cls = classOf c e.lcid ∧ e.cls ≠ .reserved ∧ (∀ k n, e.cls = .fixed k n → e.len = n) ∧
    (e.cls = .pad → final = false → e.len = 0)

/-- A block of bytes with these entries and this many subheader bytes: one subheader after the other, at most
MAX_SUBPDUS + 2, and lengths that sum to the block's (43_container_rx R241 to R245). -/
def BlockOf (c : Config) (bytes : List Byte) (entries : List Entry) (hlen : Nat) : Prop :=
  ∃ hdrs : List (List Byte),
    hdrs.length = entries.length ∧ 1 ≤ entries.length ∧ entries.length ≤ c.maxSubpdus + 2 ∧
    hdrs.flatten = bytes.take hlen ∧ hdrs.flatten.length = hlen ∧
    (∀ j e hdr, entries[j]? = some e → hdrs[j]? = some hdr →
      SubheaderOf e (decide (j + 1 = entries.length)) hdr ∧ EntryFits c e (decide (j + 1 = entries.length))) ∧
    hlen + (entries.map fun e => e.len).sum = bytes.length

/-- The subheader bytes of a RAR block: the backoff subheader first if there is one, then one for each RAPID, E = 1 on
every one but the last (30_encoding R123, 44_rar R281). The backoff subheader's bits 5:4 are free. -/
def RarHeadersOf (bi : Option (BitVec 4)) (rapids : List (BitVec 6)) (hdr : List Byte) : Prop :=
  hdr.length = (if bi.isSome then 1 else 0) + rapids.length ∧
  (∀ j (o : Byte), hdr[j]? = some o → o.getLsbD 7 = decide (j + 1 < hdr.length)) ∧
  (∀ b, bi = some b → ∃ o : Byte, hdr[0]? = some o ∧ o.getLsbD 6 = false ∧ o.extractLsb' 0 4 = b) ∧
  (∀ j r, rapids[j]? = some r →
    ∃ o : Byte, hdr[(if bi.isSome then 1 else 0) + j]? = some o ∧ o.getLsbD 6 = true ∧ o.extractLsb' 0 6 = r)

end Sys2Proof.Machine
end

