-- ==== Sys2Proof/Certificates/Slice0/Obligations.lean ====
section
/-! DEFINITION. The statements about the model, in the order of the spec's files. Each names the rule it formalises. -/

open Sys2Proof Sys2Proof.Machine

/-! ### Commands on the port (30_encoding part A, 10_state R21, R47) -/

/-- Decoding the words of any command gives the command back, with every operand at every value (R91, R94, R95). -/
def Obligations.DecodeEncodeRoundTrip : Prop :=
  ∀ i : Instr, WellFormed i → decode (encode i) = .ok i

/-- What decodes is a well-formed command, and its words are that command's only words (R91, R93, R95). -/
def Obligations.LegalWordsHaveOneCommand : Prop :=
  ∀ (ws : List Word) (i : Instr), decode ws = .ok i → WellFormed i ∧ encode i = ws

/-- Words of 95_test_vectors B3, one of each family, decode to the command they are written for. -/
def Obligations.SpecWordsDecode : Prop :=
  decode [0x01010000, 0x00000019] = .ok (.initTx true 25) ∧
  decode [0x10010000, 0x00000008] = .ok (.setSdu 1 8) ∧
  decode [0x11020000, 0, 0, 0x00000610, 0] = .ok (.setBsr 2 0 0 1552 0) ∧
  decode [0x1200FFFF] = .ok (.setPhr 0xFFFF) ∧
  decode [0x14000102, 0x03040506] = .ok (.setCrid 0x010203040506) ∧
  decode [0x27000001] = .ok (.getMchSched 1) ∧
  decode [0x34050000] = .ok (.rarSetBackoff 5) ∧
  decode [0x352A1001, 0x00000008, 0x0000000C] = .ok (.rarSetGrant 42 8 12 0x1001)

/-- R93 (and the first two places of R303's order): a command with a nonzero reserved bit, and SET_BSR with fmt = 3, end
with ERR_ILLEGAL in every state and change nothing else; so do any 1 + NW words of an assigned opcode that are no
command's words, so no other encoding is illegal and none is missed. The reserved bits are the masks of the opcode map. An
unassigned opcode is UnassignedOpcodeRunsAtOnce. -/
def Obligations.IllegalCommandsOnlySetStatus : Prop :=
  (∀ (r : OpRow) (w0 : Word) (ops : List Word) (s : State), r ∈ opTable → opcField w0 = r.opc → ops.length = r.nw →
    reservedBitSet r.rsv (w0 :: ops) = true →
    runCommand (w0 :: ops) s = .next { s with code := .errIllegal }) ∧
  (∀ (w0 o0 o1 o2 o3 : Word) (s : State), opcField w0 = 0x11 → w0.extractLsb' 16 2 = 3 →
    runCommand [w0, o0, o1, o2, o3] s = .next { s with code := .errIllegal }) ∧
  (∀ (r : OpRow) (w0 : Word) (ops : List Word) (s : State), r ∈ opTable → opcField w0 = r.opc → ops.length = r.nw →
    (∀ i, WellFormed i → encode i ≠ w0 :: ops) →
    runCommand (w0 :: ops) s = .next { s with code := .errIllegal })

/-- R92: an unassigned opcode takes no operand words; it executes when word 0 is written and ends with ERR_ILLEGAL,
changing nothing else. -/
def Obligations.UnassignedOpcodeRunsAtOnce : Prop :=
  ∀ w : Word, opcField w ∉ assignedOpcodes →
    operandWords w = 0 ∧
    ∀ s : State, s.pend = false → writeCmd w s = .next { s with code := .errIllegal }

/-- R47: the four cases of a write to CMD, the reset values of the assembly state, and that the host cannot read it. -/
def Obligations.CommandAssembly : Prop :=
  (∀ (w : Word) (s : State), s.pend = false → operandWords w = 0 → writeCmd w s = runCommand [w] s) ∧
  (∀ (w : Word) (s : State), s.pend = false → operandWords w ≠ 0 →
    writeCmd w s = .next { s with pend := true, pendWord0 := w, pendLeft := operandWords w }) ∧
  (∀ (w : Word) (s : State), s.pend = true → 1 < s.pendLeft →
    writeCmd w s = .next
      { s with pendLeft := s.pendLeft - 1, pendOps := s.pendOps.put (operandWords s.pendWord0 - s.pendLeft) w }) ∧
  (∀ (w : Word) (s : State), s.pend = true → s.pendLeft = 1 →
    let ops := s.pendOps.put (operandWords s.pendWord0 - 1) w
    writeCmd w s =
      runCommand (s.pendWord0 :: ops.toList.take (operandWords s.pendWord0))
        { s with pend := false, pendLeft := 0, pendOps := ops }) ∧
  (∀ (c : Config) (d : ResetDraw), (State.resetOf c d).pend = false ∧ (State.resetOf c d).pendLeft = 0) ∧
  (∀ (s : State) (p : Bool) (w : Word) (l : Nat) (o : PendOps) (addr : Word),
    readRegister { s with pend := p, pendWord0 := w, pendLeft := l, pendOps := o } addr = readRegister s addr)

/-- A step in which the host's next access writes the last word of a command executes that command on the state with the
access taken and the assembly cleared (R16, R47, R90). One host access per step is the model's choice (log 4). -/
def Obligations.StepRunsDecodedCommand : Prop :=
  (∀ (s : State) (w : Word) (rest : List HostAccess) (i : Instr),
    s.hostq = .writeReg 0 w :: rest → s.pend = false → decode [w] = .ok i →
    step s = exec i { s with hostq := rest }) ∧
  (∀ (s : State) (w : Word) (rest : List HostAccess) (i : Instr),
    s.hostq = .writeReg 0 w :: rest → s.pend = true → s.pendLeft = 1 →
    decode (s.pendWord0 :: (s.pendOps.put (operandWords s.pendWord0 - 1) w).toList.take (operandWords s.pendWord0)) =
      .ok i →
    step s = exec i { s with hostq := rest, pend := false, pendLeft := 0,
                             pendOps := s.pendOps.put (operandWords s.pendWord0 - 1) w }) ∧
  (∀ (s : State) (nbits w : Nat) (i : Instr), decodeTableWord nbits w = some i →
    ∃ w0 ops, step (s.withFetchWord nbits w) =
      exec i { s with pend := false, pendLeft := 0, pendWord0 := w0, pendOps := ops }) ∧
  (∀ s : State, s.hostq = [] → step s = .next s)

/-- When the host writes the words of a command to CMD one after the other, with no command pending, the command
executes with the last word, and the words before it change only the assembly state (R47, R90). -/
def Obligations.WrittenCommandRuns : Prop :=
  ∀ (i : Instr) (s : State) (rest : List HostAccess), WellFormed i → s.pend = false →
    s.hostq = (encode i).map (fun w => HostAccess.writeReg 0 w) ++ rest →
    ∃ w0 ops l, Sys2Proof.core.run (encode i).length s =
      exec i { s with hostq := rest, pend := false, pendLeft := l, pendWord0 := w0, pendOps := ops } ∧
      (l = 0 ∨ l = s.pendLeft)

/-- R21 and R35: what a read of each register address returns, 0 at every other address, that a write to any address
but CMD is ignored, and R21's reset column. -/
def Obligations.RegisterMapReads : Prop :=
  (∀ s : State,
    readRegister s 0x00 = 0 ∧
    ((readRegister s 0x04).extractLsb' 0 8 = s.code.toCode ∧ (readRegister s 0x04).getLsbD 8 = s.corrupt ∧
      (readRegister s 0x04).extractLsb' 9 23 = 0) ∧
    ((readRegister s 0x08).extractLsb' 0 3 = s.mode.toCode ∧ (readRegister s 0x08).extractLsb' 3 1 = s.ctype.toBit ∧
      (readRegister s 0x08).getLsbD 4 = s.hasBi ∧ (readRegister s 0x08).getLsbD 5 = s.padPolicy ∧
      (readRegister s 0x08).extractLsb' 6 2 = dirCode s.cfg.dir ∧ (readRegister s 0x08).extractLsb' 8 24 = 0) ∧
    readRegister s 0x0C = word (if s.ctype = .rar then s.rcount else s.count) ∧
    readRegister s 0x10 = word s.totalLen ∧
    readRegister s 0x14 = word s.remLen ∧
    (GeneralBuild s → readRegister s 0x18 = BitVec.ofInt 32
      ((s.remLen : Int) - 1 - (match s.lastSdu with | none => 0 | some k => hsize (slotAt s k).len - 1 : Nat))) ∧
    (¬ GeneralBuild s → readRegister s 0x18 = 0) ∧
    readRegister s 0x1C = (match s.lastSdu with | none => 0xFFFFFFFF | some k => word k) ∧
    readRegister s 0x20 = word s.iter ∧
    readRegister s 0x24 = (match s.cur with | none => 0xFFFFFFFF | some k => word k) ∧
    [0x40, 0x44, 0x48, 0x4C, 0x50, 0x54, 0x58, 0x5C, 0x60].map (readRegister s) =
      [s.results.r0, s.results.r1, s.results.r2, s.results.r3, s.results.r4, s.results.r5, s.results.r6,
       s.results.r7, s.results.r8] ∧
    [0x80, 0x84, 0x88, 0x8C].map (readRegister s) =
      [word s.cfg.maxSubpdus, word s.cfg.maxTbBytes, word s.cfg.maxRarGrants, word s.cfg.bsIdx63Value] ∧
    (∀ addr : Word, addr ∉ ([0x00, 0x04, 0x08, 0x0C, 0x10, 0x14, 0x18, 0x1C, 0x20, 0x24] ++
        [0x40, 0x44, 0x48, 0x4C, 0x50, 0x54, 0x58, 0x5C, 0x60, 0x80, 0x84, 0x88, 0x8C] : List Word) →
      readRegister s addr = 0) ∧
    (∀ addr v : Word, addr ≠ 0x00 → hostAccess (.writeReg addr v) s = .next s)) ∧
  (∀ (c : Config) (d : ResetDraw),
    readRegister (State.resetOf c d) 0x08 = (dirCode c.dir).setWidth 32 <<< 6 ∧
    (∀ addr ∈ ([0x00, 0x04, 0x0C, 0x10, 0x14, 0x18, 0x20] ++ [0x40, 0x44, 0x48, 0x4C, 0x50, 0x54, 0x58, 0x5C, 0x60] :
      List Word), readRegister (State.resetOf c d) addr = 0) ∧
    readRegister (State.resetOf c d) 0x1C = 0xFFFFFFFF ∧ readRegister (State.resetOf c d) 0x24 = 0xFFFFFFFF)

/-- Host reads have no side effect (10_state R22, 20_memory R72) and give the byte, but for TXBUF in TX_BUILD, where they
give some byte and no rule promises which (20_memory R82; log 12); a host write of RXBUF[i] changes that byte and nothing
else, in every canonical RXBUF, as every state of a run has (InvariantKept). -/
def Obligations.HostAccessesChangeOnlyTheirTarget : Prop :=
  ∀ s : State,
    (∀ addr, hostAccess (.readReg addr) s = .next s) ∧
    (∀ i, i < s.cfg.maxTbBytes →
      hostAccess (.readTx i) s = .next s ∧ hostAccess (.readRx i) s = .next s ∧
      (s.mode ≠ .txBuild → hostReadTx s i = some (s.txbuf.read i)) ∧ (∃ b, hostReadTx s i = some b) ∧
      hostReadRx s i = some (s.rxbuf.read i)) ∧
    (∀ i b, i < s.cfg.maxTbBytes → BufferOk s.cfg s.rxbuf →
      ∃ m, hostAccess (.writeRx i b) s = .next { s with rxbuf := m } ∧
        ∀ a, m.read a = if a = i then b else s.rxbuf.read a)

/-- An access to an index a buffer does not have stops with the fault bufferRange: the model's choice (log 7), since "a
buffer index is an unsigned integer less than MAX_TB_BYTES" (20_memory R71). Each clause is a way to make one. -/
def Obligations.AccessesOutsideBuffersStop : Prop :=
  ∀ s : State,
    (∀ i b, s.cfg.maxTbBytes ≤ i →
      hostAccess (.writeRx i b) s = .fault .bufferRange ∧ hostAccess (.readRx i) s = .fault .bufferRange ∧
      hostAccess (.readTx i) s = .fault .bufferRange) ∧
    (s.cfg.maxTbBytes < s.totalLen → receiving .general s = true → exec .parse s = .fault .bufferRange) ∧
    (s.cfg.maxTbBytes < s.totalLen → receiving .rar s = true → exec .rarParse s = .fault .bufferRange) ∧
    (GeneralBuild s → AllPopulated s →
      ¬ StagedInside s ∨ ((blockBytes s).length = s.totalLen ∧ s.cfg.maxTbBytes < s.totalLen) →
      exec .serialize s = .fault .bufferRange) ∧
    (RarBuild s → ¬ LastUnpopulated s → (s.hasBi = true ∨ s.rcount ≠ 0) → s.cfg.maxTbBytes < s.totalLen →
      (rarHeaders s).length + (grantPayloads (rslotsInUse s)).length ≤ s.totalLen →
      exec .rarSerialize s = .fault .bufferRange) ∧
    (∀ lcid req ans s' d, GeneralBuild s → LastEmpty s → isSduLcid s.cfg lcid = true → 1 ≤ sduRoom s →
      sourceRead lcid (sduRequest req s) s = (ans, s') → ans.answer = some d →
      1 ≤ d.length → d.length ≤ sduRequest req s → s.cfg.maxTbBytes < s.sduFill + d.length →
      exec (.setSdu lcid req) s = .fault .bufferRange) ∧
    (∀ c k, CurrentEntry s c → (slotAt s c).kind = .mchSched → k.toNat < (slotAt s c).len / 2 →
      s.cfg.maxTbBytes < (slotAt s c).off + 2 * k.toNat + 2 → exec (.getMchSched k) s = .fault .bufferRange)

/-! ### Reset and the invariant (70_reset_and_hazards) -/

/-- R330: every piece of state the table gives a value has it after the host's reset, in every state before; the
parameters stay. What the table leaves unspecified is a free draw that comes with the reset (00_scope R17; log 1, log 2,
log 13): the slot files, PEND_WORD0, PEND_OPS and every byte of the three buffers are the drawn ones, whatever is drawn. -/
def Obligations.ResetGivesTheTable : Prop :=
  ∀ (s : State) (d : ResetDraw), ∃ t, hostAccess (.reset d) s = .next t ∧
    t.code = .ok ∧ t.mode = .idle ∧ t.ctype = .general ∧ t.padPolicy = false ∧ t.totalLen = 0 ∧ t.remLen = 0 ∧
    t.count = 0 ∧ t.lastSdu = none ∧ t.corrupt = false ∧ t.iter = 0 ∧ t.cur = none ∧ t.sduFill = 0 ∧
    t.hasBi = false ∧ t.bi = 0 ∧ t.rcount = 0 ∧ t.results = ⟨0, 0, 0, 0, 0, 0, 0, 0, 0⟩ ∧
    t.pend = false ∧ t.pendLeft = 0 ∧ t.cfg = s.cfg ∧ readRegister t 0x18 = 0 ∧
    t.pendWord0 = d.pendWord0 ∧ t.pendOps = d.pendOps ∧
    (∀ k, k < s.cfg.maxSubpdus + 2 → t.slots[k]? = some (d.slots.getD k Slot.zero)) ∧
    (∀ k, k < s.cfg.maxRarGrants → t.rslots[k]? = some (d.rslots.getD k RSlot.zero)) ∧
    (∀ i, i < s.cfg.maxTbBytes →
      t.txbuf.read i = d.txbuf.getD i 0 ∧ t.rxbuf.read i = d.rxbuf.getD i 0 ∧ t.sdubuf.read i = d.sdubuf.getD i 0)

/-- The state after reset, of every instance with legal parameters, whatever is drawn for what the reset table leaves
unspecified, and the one State.reset stands for, meets the invariant. -/
def Obligations.ResetMeetsInvariant : Prop :=
  (∀ (c : Config) (d : ResetDraw), c.ok = true → RunInv (State.resetOf c d)) ∧ RunInv State.reset

/-- The invariant is kept by every step, from every state that meets it. -/
def Obligations.InvariantKept : Prop :=
  ∀ s t : State, RunInv s → step s = .next t → RunInv t

/-- From a state that meets the invariant every command answers a next state, and so does every step whose host access,
if there is one, stays inside the buffers: nothing stops the block (20_memory R71, 60_exceptions R308). -/
def Obligations.NoStopFromInvariant : Prop :=
  ∀ s : State, RunInv s →
    (∀ i : Instr, ∃ t, exec i s = .next t) ∧
    ((∀ a rest, s.hostq = a :: rest → hostAccessOk s.cfg a = true) → ∃ t, step s = .next t)

/-- R333: in IDLE a command that is not one of the four INIT commands ends with ERR_STATE, or ERR_ILLEGAL if its 1 + NW
words are illegal, and changes nothing. -/
def Obligations.IdleRefusesAllButInit : Prop :=
  (∀ (i : Instr) (s : State), s.mode = .idle → isInit i = false → WellFormed i → OnlyEndsWith i s .errState) ∧
  (∀ (w0 : Word) (ops : List Word) (s : State), ops.length = operandWords w0 → s.mode = .idle →
    (∃ i, decode (w0 :: ops) = .ok i ∧ isInit i = true) ∨
    ((∃ i, decode (w0 :: ops) = .ok i) ∧ runCommand (w0 :: ops) s = .next { s with code := .errState }) ∨
    ((∃ why, decode (w0 :: ops) = .illegal why) ∧ runCommand (w0 :: ops) s = .next { s with code := .errIllegal }))

/-! ### Quantization (40_quantization) -/

/-- R141: bs_index(x) is the least index whose edge is at least x, and 63 above 150000; and the bands. R142 and R143: what
an index expands to, and the five laws. -/
def Obligations.BufferSizeIndexAndLaws : Prop :=
  (∀ x : Nat,
    (x ≤ 150000 → bsIndex x ≤ 62 ∧ x ≤ bsEdge.getD (bsIndex x) 0 ∧ ∀ j < bsIndex x, bsEdge.getD j 0 < x) ∧
    (150000 < x → bsIndex x = 63) ∧
    (bsIndex x = 0 ↔ x = 0) ∧
    (∀ i, 1 ≤ i → i ≤ 62 → (bsIndex x = i ↔ bsEdge.getD (i - 1) 0 < x ∧ x ≤ bsEdge.getD i 0)) ∧
    (bsIndex x = 63 ↔ 150000 < x)) ∧
  (∀ (c : Config) (i : BitVec 6), i.toNat ≤ 62 → bsValue c i = bsEdge.getD i.toNat 0) ∧
  (∀ c : Config, bsValue c 63 = c.bsIdx63Value) ∧
  (∀ x y, x ≤ y → bsIndex x ≤ bsIndex y) ∧
  (∀ x, bsIndex x = 63 ↔ 150000 < x) ∧ bsIndex 0 = 0 ∧ (∀ x, 1 ≤ x → 1 ≤ bsIndex x) ∧
  (∀ (c : Config) (x : Nat), x ≤ 150000 → x ≤ bsValue c (BitVec.ofNat 6 (bsIndex x))) ∧
  (∀ (c : Config) (i : BitVec 6), i.toNat ≤ 62 → bsIndex (bsValue c i) = i.toNat) ∧
  (∀ c : Config, 150000 ≤ c.bsIdx63Value → (bsIndex (bsValue c 63) = 63 ↔ 150000 < c.bsIdx63Value)) ∧
  (∀ c : Config, c.bsIdx63Value = 150000 → bsIndex (bsValue c 63) = 62) ∧
  (∀ i j, i < j → j ≤ 62 → bsEdge.getD i 0 < bsEdge.getD j 0)

/-- R146, R147 and R148: the power-headroom index, its value, and their laws. -/
def Obligations.PowerHeadroomLaws : Prop :=
  (∀ v : Int, (phIndex v : Int) = min (max v (-23)) 40 + 23 ∧ phIndex v ≤ 63) ∧
  (∀ i : BitVec 6, phValue i = (i.toNat : Int) - 23 ∧ -23 ≤ phValue i ∧ phValue i ≤ 40) ∧
  (∀ v w : Int, v ≤ w → phIndex v ≤ phIndex w) ∧
  (∀ v : Int, v ≤ -23 → phIndex v = 0) ∧ (∀ v : Int, 40 ≤ v → phIndex v = 63) ∧
  (∀ v : Int, -23 ≤ v → v ≤ 40 → phValue (BitVec.ofNat 6 (phIndex v)) = v) ∧
  (∀ i : BitVec 6, phIndex (phValue i) = i.toNat)

/-! ### General container, transmit (41_container_tx) -/

/-- R162, R240, R272, R280: what the four INIT commands do, in every state. -/
def Obligations.InitCommandsStartAContainer : Prop :=
  ∀ (pad : Bool) (n : Word) (s : State),
    (s.cfg.maxTbBytes < n.toNat →
      OnlyEndsWith (.initTx pad n) s .errIllegal ∧ OnlyEndsWith (.initRx n) s .errIllegal ∧
      OnlyEndsWith (.rarInitTx n) s .errIllegal ∧ OnlyEndsWith (.rarInitRx n) s .errIllegal) ∧
    (n.toNat ≤ s.cfg.maxTbBytes →
      let fresh : State :=
        { s with totalLen := n.toNat, count := 0, lastSdu := none, sduFill := 0, corrupt := false, iter := 0,
                 cur := none, rcount := 0, hasBi := false, bi := 0, code := .ok }
      exec (.initTx pad n) s =
        .next { fresh with ctype := .general, mode := .txBuild, padPolicy := pad, remLen := n.toNat } ∧
      exec (.initRx n) s =
        .next { fresh with ctype := .general, mode := .rxReady, padPolicy := false, remLen := 0 } ∧
      exec (.rarInitTx n) s =
        .next { fresh with ctype := .rar, mode := .txBuild, padPolicy := false, remLen := n.toNat } ∧
      exec (.rarInitRx n) s =
        .next { fresh with ctype := .rar, mode := .rxReady, padPolicy := false, remLen := 0 })

/-- R163: APPEND claims the next slot, EMPTY, with its snapshot, and answers its index; or refuses in the rule's order. -/
def Obligations.AppendClaimsNextSlot : Prop :=
  ∀ s : State,
    (¬ GeneralBuild s → OnlyEndsWith .append s .errState) ∧
    (GeneralBuild s → LastEmpty s → OnlyEndsWith .append s .errState) ∧
    (GeneralBuild s → ¬ LastEmpty s → s.count = s.cfg.maxSubpdus → OnlyEndsWith .append s .errCapacity) ∧
    (GeneralBuild s → ¬ LastEmpty s → s.count ≠ s.cfg.maxSubpdus →
      exec .append s = .next
        { s with slots := s.slots.set s.count
                   { kind := .empty, lcid := 0, len := 0, off := 0, ce := ⟨0, 0, 0, 0, 0, 0⟩, remBefore := s.remLen,
                     lastBefore := s.lastSdu, fillBefore := s.sduFill },
                 count := s.count + 1, results := { s.results with r0 := word s.count }, code := .ok })

/-- R164: REMOVE_LAST restores the snapshot of the last slot and frees it. -/
def Obligations.RemoveLastRestoresSnapshot : Prop :=
  ∀ s : State,
    (¬ GeneralBuild s → OnlyEndsWith .removeLast s .errState) ∧
    (GeneralBuild s → s.count = 0 → OnlyEndsWith .removeLast s .errState) ∧
    (GeneralBuild s → s.count ≠ 0 →
      exec .removeLast s = .next
        { s with remLen := (slotAt s (s.count - 1)).remBefore, lastSdu := (slotAt s (s.count - 1)).lastBefore,
                 sduFill := (slotAt s (s.count - 1)).fillBefore, count := s.count - 1,
                 results := { s.results with r0 := word (s.count - 1) }, code := .ok })

/-- Whatever set command is tried on an appended slot, REMOVE_LAST brings back REM_LEN, LAST_SDU, SDU_FILL and COUNT
(R163, R164: "their values before the matching APPEND"). -/
def Obligations.RemoveUndoesAppend : Prop :=
  ∀ (s : State) (i : Instr), RunInv s → GeneralBuild s → ¬ LastEmpty s → s.count ≠ s.cfg.maxSubpdus →
    ((∃ lcid n, i = .setSdu lcid n) ∨ ceCommand i ≠ none) →
    ∃ t u v, exec .append s = .next t ∧ exec i t = .next u ∧ exec .removeLast u = .next v ∧ v.code = .ok ∧
      v.remLen = s.remLen ∧ v.lastSdu = s.lastSdu ∧ v.sduFill = s.sduFill ∧ v.count = s.count

/-- R165 and R166: SET_SDU follows the rule's checks in order, asks the source for min(requested, space, 32767) bytes,
and commits a non-empty answer. `sourceRead lcid mx s` is the source's answer to that request in state s, with the model's
inputs source and draws after it (EachRegisterHasItsWriters says which answer that is); each clause holds for every answer.
The last clause says where SET_SDU completes: on every state and operands that meet the rule's checks, with an answer of 1
to mx bytes, and room for it in a canonical SDUBUF, which every state of a run has (InvariantKept, NoStopFromInvariant). -/
def Obligations.SetSduFollowsItsChecks : Prop :=
  ∀ (lcid : BitVec 5) (req : Word) (s : State),
    let grow : Nat := match s.lastSdu with
      | none => 0
      | some k => hsize (slotAt s k).len - 1
    let space : Int := (s.remLen : Int) - 1 - grow
    let mx : Nat := min req.toNat (min space.toNat 32767)
    (¬ GeneralBuild s → OnlyEndsWith (.setSdu lcid req) s .errState) ∧
    (GeneralBuild s → ¬ LastEmpty s → OnlyEndsWith (.setSdu lcid req) s .errState) ∧
    (GeneralBuild s → LastEmpty s → isSduLcid s.cfg lcid = false → OnlyEndsWith (.setSdu lcid req) s .errDirection) ∧
    (GeneralBuild s → LastEmpty s → isSduLcid s.cfg lcid = true → space < 1 →
      OnlyEndsWith (.setSdu lcid req) s .errCapacity) ∧
    (GeneralBuild s → LastEmpty s → isSduLcid s.cfg lcid = true → 1 ≤ space → mx = 0 →
      exec (.setSdu lcid req) s = .next { s with results := { s.results with r0 := 0 }, code := .ok }) ∧
    (GeneralBuild s → LastEmpty s → isSduLcid s.cfg lcid = true → 1 ≤ space → 1 ≤ mx →
      let ans : Option (List Byte) := (sourceRead lcid mx s).1.answer
      let asked : State :=
        { s with source := (sourceRead lcid mx s).2.source, draws := (sourceRead lcid mx s).2.draws }
      (ans = none → ∃ t, exec (.setSdu lcid req) s = .next t ∧ t.code = .errSource) ∧
      (∀ d, ans = some d → mx < d.length → ∃ t, exec (.setSdu lcid req) s = .next t ∧ t.code = .errSource) ∧
      (ans = some [] →
        exec (.setSdu lcid req) s = .next { asked with results := { s.results with r0 := 0 }, code := .ok }) ∧
      (∀ d, ans = some d → 1 ≤ d.length → d.length ≤ mx → BufferOk s.cfg s.sdubuf →
        s.sduFill + d.length ≤ s.cfg.maxTbBytes →
        ∃ m, WrittenAt s.sdubuf m s.sduFill d ∧
          exec (.setSdu lcid req) s = .next
            { asked with sdubuf := m,
                         slots := s.slots.set (s.count - 1)
                           { slotAt s (s.count - 1) with kind := .sdu, lcid := lcid, len := d.length, off := s.sduFill },
                         sduFill := s.sduFill + d.length, remLen := s.remLen - (d.length + 1 + grow),
                         lastSdu := some (s.count - 1), results := { s.results with r0 := word d.length },
                         code := .ok }))

/-- R168: an Err answer, or more than mx bytes, ends with ERR_SOURCE and commits nothing; SDUBUF below SDU_FILL is as
before. -/
def Obligations.SourceErrorCommitsNothing : Prop :=
  ∀ (lcid : BitVec 5) (req : Word) (s s' : State) (ans : SourceAnswer),
    GeneralBuild s → LastEmpty s → isSduLcid s.cfg lcid = true → 1 ≤ sduRoom s →
    let mx := min req.toNat (min (sduRoom s).toNat 32767)
    1 ≤ mx → sourceRead lcid mx s = (ans, s') →
    (ans.answer = none ∨ ∃ d, ans.answer = some d ∧ mx < d.length) →
    ∃ m, exec (.setSdu lcid req) s =
        .next { s with sdubuf := m, source := s'.source, draws := s'.draws, code := .errSource } ∧
      ∀ a, a < s.sduFill → m.read a = s.sdubuf.read a

/-- R171: the padding decision. -/
def Obligations.PaddingDecision : Prop :=
  ∀ s : State,
    let grow : Nat := match s.lastSdu with
      | none => 0
      | some k => hsize (slotAt s k).len - 1
    (2 < s.remLen → multiPad s = true ∧ padOnes s = 0 ∧ padZeros s + 1 + grow = s.remLen) ∧
    (s.remLen = 1 ∨ s.remLen = 2 → multiPad s = false ∧ padOnes s = s.remLen ∧ padZeros s = 0) ∧
    (s.remLen = 0 → multiPad s = false ∧ padOnes s = 0 ∧ padZeros s = 0)

/-- R173, R174, R175: the subheader list, its E bits, and the bytes of each subheader. R160's hsize is the number of
bytes of a non-final SDU subheader. -/
def Obligations.SubheaderLayout : Prop :=
  (∀ s : State, subEntries s =
    List.replicate (padOnes s) .pad1 ++ ((slotsInUse s).filter fun x => x.kind.isCe).map .ce ++
    ((slotsInUse s).filter fun x => decide (x.kind = .sdu)).map .sdu ++ (if multiPad s then [.padM] else [])) ∧
  (∀ es : List SubEntry,
    headerBytes es = (es.mapIdx fun j x => x.bytes (decide (j + 1 < es.length))).flatten) ∧
  (∀ e : Bool,
    SubEntry.pad1.bytes e = [0#2 ++ BitVec.ofBool e ++ 31#5] ∧ SubEntry.padM.bytes e = [0#2 ++ BitVec.ofBool e ++ 31#5]) ∧
  (∀ (e : Bool) (x : Slot), (SubEntry.ce x).bytes e = [0#2 ++ BitVec.ofBool e ++ x.lcid]) ∧
  (∀ x : Slot, (SubEntry.sdu x).bytes false = [0#3 ++ x.lcid]) ∧
  (∀ x : Slot, x.len < 128 → (SubEntry.sdu x).bytes true = [0#2 ++ 1#1 ++ x.lcid, BitVec.ofNat 8 x.len]) ∧
  (∀ x : Slot, 128 ≤ x.len → x.len ≤ 32767 →
    (SubEntry.sdu x).bytes true =
      [0#2 ++ 1#1 ++ x.lcid, BitVec.ofNat 8 (128 + x.len / 256), BitVec.ofNat 8 (x.len % 256)]) ∧
  (∀ x : Slot, ((SubEntry.sdu x).bytes true).length = hsize x.len)

/-- R170, R176, R177, R178 and R81: SERIALIZE checks, lays the block out as OUT = H ++ C ++ D ++ Z, fails ERR_SERIALIZE
with MODE <- IDLE when OUT has not TOTAL_LEN bytes, and else writes it to TXBUF[0 ..] and nothing beyond. The last clause
says where SERIALIZE completes; every build of a run with no EMPTY slot meets its conditions (TransmitAccounting, and
InvariantKept for a canonical TXBUF). -/
def Obligations.SerializeWritesTheBlock : Prop :=
  ∀ s : State,
    (¬ GeneralBuild s → OnlyEndsWith .serialize s .errState) ∧
    (GeneralBuild s → ¬ AllPopulated s → OnlyEndsWith .serialize s .errState) ∧
    (GeneralBuild s → AllPopulated s → StagedInside s → (blockBytes s).length ≠ s.totalLen →
      exec .serialize s = .next { s with mode := .idle, code := .errSerialize }) ∧
    (GeneralBuild s → AllPopulated s → StagedInside s → (blockBytes s).length = s.totalLen →
      s.totalLen ≤ s.cfg.maxTbBytes → BufferOk s.cfg s.txbuf →
      ∃ m, WrittenAt s.txbuf m 0 (blockBytes s) ∧
        exec .serialize s = .next
          { s with txbuf := m, mode := .txDone,
                   results := { s.results with r0 := word s.totalLen, r1 := word (headerBytes (subEntries s)).length,
                                               r2 := word (padOnes s + (if multiPad s then 1 else 0)),
                                               r3 := word (padZeros s) },
                   code := .ok })

/-- R172: the accounting invariant, and that every build reachable through the commands serializes: its block has exactly
TOTAL_LEN bytes, which the postcondition check of R177 never refuses. -/
def Obligations.TransmitAccounting : Prop :=
  ∀ s : State, RunInv s → GeneralBuild s →
    s.totalLen = s.remLen + ((List.range s.count).map (slotCost s)).sum ∧
    (AllPopulated s → StagedInside s ∧ (blockBytes s).length = s.totalLen ∧ s.totalLen ≤ s.cfg.maxTbBytes)

/-- R31: LAST_SDU is NONE, or names an SDU slot with no SDU slot after it; NONE only when there is no SDU (from R166).
Its reset value is NONE. -/
def Obligations.LastSduIsTheLastSduSlot : Prop :=
  (∀ s : State, RunInv s → GeneralBuild s →
    (s.lastSdu = none ∧ ∀ k < s.count, (slotAt s k).kind ≠ .sdu) ∨
    (∃ j, s.lastSdu = some j ∧ j < s.count ∧ (slotAt s j).kind = .sdu ∧
      ∀ k, j < k → k < s.count → (slotAt s k).kind ≠ .sdu)) ∧
  (∀ (c : Config) (d : ResetDraw), (State.resetOf c d).lastSdu = none)

/-- R39, for the populated slots of a build and the entries of a parse: the kind is SDU iff the LCID is an SDU LCID of
the direction, and padding has LCID 31. (An EMPTY slot has no subheader yet; its kind is not SDU.) -/
def Obligations.PopulatedSlotKinds : Prop :=
  ∀ s : State, RunInv s → GeneralBuild s ∨ GeneralParsed s → ∀ k < s.count, (slotAt s k).kind ≠ .empty →
    ((slotAt s k).kind = .sdu ↔ isSduLcid s.cfg (slotAt s k).lcid = true) ∧
    ((slotAt s k).kind = .padding → (slotAt s k).lcid = 31)

/-! ### Control elements (42_control_elements) -/

/-- R200 to R203: SET_BSR. The Long form packs four indices in 24 bits, group 0 on top; the Short and Truncated forms
report the selected group. fmt = 3 ends with ERR_ILLEGAL. -/
def Obligations.SetBsrEncodesOccupancy : Prop :=
  ∀ (o0 o1 o2 o3 : Word) (s : State), s.cfg.ok = true →
    let ix := fun o : Word => BitVec.ofNat 6 (bsIndex o.toNat)
    let p : BitVec 24 := ix o0 ++ ix o1 ++ ix o2 ++ ix o3
    SetsCe (.setBsr 1 o0 o1 o2 o3) .longBsr [p.extractLsb' 16 8, p.extractLsb' 8 8, p.extractLsb' 0 8] s ∧
    (∃ g occ, IsSelectedGroup [o0, o1, o2, o3] g occ ∧
      SetsCe (.setBsr 0 o0 o1 o2 o3) .shortBsr [g ++ ix occ] s ∧
      SetsCe (.setBsr 2 o0 o1 o2 o3) .truncBsr [g ++ ix occ] s) ∧
    OnlyEndsWith (.setBsr 3 o0 o1 o2 o3) s .errIllegal

/-- R205 to R209: SET_PHR with its signed operand, SET_TA with TAG 0, SET_CRID and SET_CRNTI big-endian, SET_SCELL in the
form its bitmap needs. -/
def Obligations.SetFixedElementsEncode : Prop :=
  ∀ (db rnti : BitVec 16) (ta : BitVec 6) (crid : BitVec 48) (bitmap : Word) (s : State), s.cfg.ok = true →
    let b := bitmap &&& 0xFFFFFFFE#32
    SetsCe (.setPhr db) .phr [BitVec.ofNat 8 (phIndex db.toInt)] s ∧
    SetsCe (.setCrnti rnti) .crnti [rnti.extractLsb' 8 8, rnti.extractLsb' 0 8] s ∧
    SetsCe (.setTa ta) .ta [0#2 ++ ta] s ∧
    SetsCe (.setCrid crid) .crid
      [crid.extractLsb' 40 8, crid.extractLsb' 32 8, crid.extractLsb' 24 8, crid.extractLsb' 16 8,
       crid.extractLsb' 8 8, crid.extractLsb' 0 8] s ∧
    (b.toNat < 256 → SetsCe (.setScell bitmap) .scell1 [b.extractLsb' 0 8] s) ∧
    (256 ≤ b.toNat →
      SetsCe (.setScell bitmap) .scell4
        [b.extractLsb' 24 8, b.extractLsb' 16 8, b.extractLsb' 8 8, b.extractLsb' 0 8] s)

/-- The table of R200 under the default LCID tables (30_encoding R107 to R109): which kinds the SET_ CE commands can set
in which direction, and that in an MCH instance every one of them ends with ERR_DIRECTION. -/
def Obligations.SettableKindsByDirection : Prop :=
  (∀ (c : Config) (i : Instr) (kind : Kind) (p : List Byte), c.lcid = defaultLcidTable →
    ceCommand i = some (kind, p) →
    ((kindRow c kind).isSome = true ↔ kind ∈ settableKinds c.dir)) ∧
  (∀ (i : Instr) (kind : Kind) (p : List Byte) (s : State), s.cfg.lcid = defaultLcidTable → s.cfg.dir = .mch →
    ceCommand i = some (kind, p) → GeneralBuild s → LastEmpty s → OnlyEndsWith i s .errDirection)

/-- R211: the common checks of every GET_ command, which for GET_SDU are R252's, and that a GET_ command, the RAR ones
too, changes only RESULT and STATUS. -/
def Obligations.GettersCheckTheirEntry : Prop :=
  (∀ (i : Instr) (kinds : List Kind) (s : State), decodedKinds i = some kinds → GetterChecks i kinds s) ∧
  (∀ (i : Instr) (s t : State), isGetter i = true → exec i s = .next t →
    t = { s with results := t.results, code := t.code })

/-- R212: GET_BSR's checks, then the decoding of a Long BSR, and of a Short or Truncated one. -/
def Obligations.GetBsrDecodes : Prop :=
  (∀ s : State, GetterChecks .getBsr [.shortBsr, .longBsr, .truncBsr] s) ∧
  ∀ (s : State) (c : Nat), CurrentEntry s c →
    let x := slotAt s c
    (x.kind = .longBsr →
      let p : BitVec 24 := x.ce.c0 ++ x.ce.c1 ++ x.ce.c2
      let i0 := p.extractLsb' 18 6
      let i1 := p.extractLsb' 12 6
      let i2 := p.extractLsb' 6 6
      let i3 := p.extractLsb' 0 6
      ∃ dom : Nat, dom < 4 ∧
        (∀ j : Nat, j < 4 → ([i0, i1, i2, i3].getD j 0).toNat ≤ ([i0, i1, i2, i3].getD dom 0).toNat) ∧
        (∀ j : Nat, j < dom → ([i0, i1, i2, i3].getD j 0).toNat < ([i0, i1, i2, i3].getD dom 0).toNat) ∧
        exec .getBsr s = .next
          { s with results :=
                     ⟨word (bsValue s.cfg i0), word (bsValue s.cfg i1), word (bsValue s.cfg i2),
                      word (bsValue s.cfg i3), word dom, i0.setWidth 32, i1.setWidth 32, i2.setWidth 32,
                      i3.setWidth 32⟩,
                   code := .ok }) ∧
    (x.kind = .shortBsr ∨ x.kind = .truncBsr →
      let g := (x.ce.c0.extractLsb' 6 2).toNat
      let ix := fun j : Nat => if j = g then x.ce.c0.extractLsb' 0 6 else 0#6
      exec .getBsr s = .next
        { s with results :=
                   ⟨word (bsValue s.cfg (ix 0)), word (bsValue s.cfg (ix 1)), word (bsValue s.cfg (ix 2)),
                    word (bsValue s.cfg (ix 3)), word g, (ix 0).setWidth 32, (ix 1).setWidth 32,
                    (ix 2).setWidth 32, (ix 3).setWidth 32⟩,
                 code := .ok })

/-- R213 to R217: GET_PHR, GET_TA, GET_CRID, GET_CRNTI and GET_SCELL, its reserved bit read as 0, each after its checks. -/
def Obligations.GetFixedElementsDecode : Prop :=
  (∀ s : State,
    GetterChecks .getPhr [.phr] s ∧ GetterChecks .getTa [.ta] s ∧ GetterChecks .getCrid [.crid] s ∧
    GetterChecks .getCrnti [.crnti] s ∧ GetterChecks .getScell [.scell1, .scell4] s) ∧
  ∀ (s : State) (c : Nat), CurrentEntry s c →
    let x := slotAt s c
    (x.kind = .phr → exec .getPhr s = .next
      { s with results := { s.results with r0 := BitVec.ofInt 32 (((x.ce.c0.extractLsb' 0 6).toNat : Int) - 23),
                                           r1 := (x.ce.c0.extractLsb' 0 6).setWidth 32 }, code := .ok }) ∧
    (x.kind = .ta → exec .getTa s = .next
      { s with results := { s.results with r0 := (x.ce.c0.extractLsb' 0 6).setWidth 32,
                                           r1 := (x.ce.c0.extractLsb' 6 2).setWidth 32 }, code := .ok }) ∧
    (x.kind = .crid → exec .getCrid s = .next
      { s with results := { s.results with r0 := 0#16 ++ x.ce.c0 ++ x.ce.c1,
                                           r1 := x.ce.c2 ++ x.ce.c3 ++ x.ce.c4 ++ x.ce.c5 }, code := .ok }) ∧
    (x.kind = .crnti → exec .getCrnti s = .next
      { s with results := { s.results with r0 := 0#16 ++ x.ce.c0 ++ x.ce.c1 }, code := .ok }) ∧
    (x.kind = .scell1 → exec .getScell s = .next
      { s with results := { s.results with r0 := (0#24 ++ x.ce.c0) &&& 0xFFFFFFFE#32, r1 := 1 }, code := .ok }) ∧
    (x.kind = .scell4 → exec .getScell s = .next
      { s with results := { s.results with r0 := (x.ce.c0 ++ x.ce.c1 ++ x.ce.c2 ++ x.ce.c3) &&& 0xFFFFFFFE#32,
                                           r1 := 4 }, code := .ok })

/-- R218 and R87: GET_MCH_SCHED, after its checks, decodes entry k from RXBUF as it is when the command runs. -/
def Obligations.GetMchSchedReadsRxbuf : Prop :=
  (∀ (k : BitVec 16) (s : State), GetterChecks (.getMchSched k) [.mchSched] s) ∧
  ∀ (s : State) (c : Nat) (k : BitVec 16), CurrentEntry s c → (slotAt s c).kind = .mchSched →
    let x := slotAt s c
    (x.len / 2 ≤ k.toNat → OnlyEndsWith (.getMchSched k) s .errIllegal) ∧
    (k.toNat < x.len / 2 → x.off + 2 * k.toNat + 2 ≤ s.cfg.maxTbBytes →
      let v : BitVec 16 := s.rxbuf.read (x.off + 2 * k.toNat) ++ s.rxbuf.read (x.off + 2 * k.toNat + 1)
      exec (.getMchSched k) s = .next
        { s with results := { s.results with r0 := v.setWidth 32, r1 := (v.extractLsb' 11 5).setWidth 32,
                                             r2 := (v.extractLsb' 0 11).setWidth 32, r3 := word (x.len / 2) },
                 code := .ok })

/-- A CE read back by its getter gives what its SET_ command was given (R202 to R217): the power headroom clamped, the
SCell bitmap without bit 0, the occupancies as their bands' upper edges. -/
def Obligations.ControlElementRoundTrip : Prop :=
  ∀ (s : State) (c : Nat) (i : Instr) (kind : Kind) (p : List Byte), CurrentEntry s c →
    ceCommand i = some (kind, p) → (slotAt s c).kind = kind → (slotAt s c).ce = CeBytes.ofList p →
    (∀ db, i = .setPhr db → ∃ t, exec .getPhr s = .next t ∧ t.results.r0.toInt = min (max db.toInt (-23)) 40) ∧
    (∀ ta, i = .setTa ta → ∃ t, exec .getTa s = .next t ∧ t.results.r0 = ta.setWidth 32 ∧ t.results.r1 = 0) ∧
    (∀ crid, i = .setCrid crid → ∃ t, exec .getCrid s = .next t ∧
      t.results.r0 = (crid.extractLsb' 32 16).setWidth 32 ∧ t.results.r1 = crid.extractLsb' 0 32) ∧
    (∀ rnti, i = .setCrnti rnti → ∃ t, exec .getCrnti s = .next t ∧ t.results.r0 = rnti.setWidth 32) ∧
    (∀ bitmap, i = .setScell bitmap → ∃ t, exec .getScell s = .next t ∧
      t.results.r0 = bitmap &&& 0xFFFFFFFE#32) ∧
    (∀ o0 o1 o2 o3, i = .setBsr 1 o0 o1 o2 o3 → ∃ t, exec .getBsr s = .next t ∧
      [t.results.r5, t.results.r6, t.results.r7, t.results.r8] =
        [o0, o1, o2, o3].map fun o => word (bsIndex o.toNat)) ∧
    (∀ fmt o0 o1 o2 o3, fmt ≠ 1 → i = .setBsr fmt o0 o1 o2 o3 → ∃ t, exec .getBsr s = .next t ∧
      ∃ g occ, IsSelectedGroup [o0, o1, o2, o3] g occ ∧ t.results.r4 = g.setWidth 32 ∧
        ∀ j : Nat, j < 4 → [t.results.r5, t.results.r6, t.results.r7, t.results.r8].getD j 0 =
          if j = g.toNat then word (bsIndex occ.toNat) else 0)

/-! ### General container, receive (43_container_rx) -/

/-- R241 to R246: the walk accepts a non-empty block with these entries and this header length exactly when the block
has that structure under the wire grammar (30_encoding R98 to R104). -/
def Obligations.ParseAcceptsExactlyTheGrammar : Prop :=
  ∀ (c : Config) (bytes : List Byte) (es : List Entry) (h : Nat), bytes ≠ [] →
    (parseBlock c bytes = some ⟨es, h⟩ ↔ BlockOf c bytes es h)

/-- R247 and R246: PARSE of a block with entries `es` and `h` subheader bytes, or of no bytes at all, commits them; every
entry's slot has its kind, LCID, length, offset and CE bytes; the slots beyond are as before. -/
def Obligations.ParseCommitsEntries : Prop :=
  ∀ (s : State) (es : List Entry) (h : Nat), receiving .general s = true → s.totalLen ≤ s.cfg.maxTbBytes →
    (s.totalLen = 0 ∧ es = [] ∧ h = 0) ∨ (0 < s.totalLen ∧ BlockOf s.cfg (s.rxbuf.readN 0 s.totalLen) es h) →
    ∃ t, exec .parse s = .next t ∧
      t = { s with slots := t.slots, count := es.length, corrupt := false, mode := .rxParsed, iter := 0, cur := none,
                   results := { s.results with r0 := word es.length, r1 := word h }, code := .ok } ∧
      t.slots.length = s.slots.length ∧
      (∀ j, es.length ≤ j → t.slots[j]? = s.slots[j]?) ∧
      (∀ j e, es[j]? = some e → j < s.slots.length →
        let off := h + ((es.take j).map fun x => x.len).sum
        (slotAt t j).kind = e.cls.kind ∧ (slotAt t j).lcid = e.lcid ∧ (slotAt t j).len = e.len ∧
        (slotAt t j).off = off ∧
        (slotAt t j).ce = CeBytes.ofList
          (match e.cls with
           | .fixed _ _ => s.rxbuf.readN off e.len
           | .sdu | .var _ | .pad | .reserved => []))

/-- R248: PARSE of a block without that structure empties the container, sets CORRUPT and ends with ERR_CORRUPT; PARSE
outside RX_READY and RX_PARSED of the general container ends with ERR_STATE. -/
def Obligations.ParseCorruptEmpties : Prop :=
  ∀ s : State,
    (receiving .general s = true → 0 < s.totalLen → s.totalLen ≤ s.cfg.maxTbBytes →
      (∀ es h, ¬ BlockOf s.cfg (s.rxbuf.readN 0 s.totalLen) es h) →
      exec .parse s = .next
        { s with count := 0, corrupt := true, mode := .rxParsed, iter := 0, cur := none, code := .errCorrupt }) ∧
    (¬ (s.ctype = .general ∧ (s.mode = .rxReady ∨ s.mode = .rxParsed)) → OnlyEndsWith .parse s .errState)

/-- R250: ITER_NEXT returns the entries in order, then ITER_END. -/
def Obligations.IterNextReturnsEntries : Prop :=
  ∀ s : State,
    (¬ GeneralParsed s → OnlyEndsWith .iterNext s .errState) ∧
    (GeneralParsed s → s.count ≤ s.iter → OnlyEndsWith .iterNext s .iterEnd) ∧
    (GeneralParsed s → s.iter < s.count →
      let x := slotAt s s.iter
      exec .iterNext s = .next
        { s with results := { s.results with r0 := (kindCode x.kind).setWidth 32, r1 := x.lcid.setWidth 32,
                                             r2 := word x.off, r3 := word x.len, r4 := word s.iter },
                 cur := some s.iter, iter := s.iter + 1, code := .ok })

/-- R252: GET_SDU answers where the SDU lies. -/
def Obligations.GetSduLocatesPayload : Prop :=
  ∀ s : State,
    (¬ GeneralParsed s → OnlyEndsWith .getSdu s .errState) ∧
    (GeneralParsed s → s.cur = none → OnlyEndsWith .getSdu s .errState) ∧
    (∀ c, CurrentEntry s c → (slotAt s c).kind ≠ .sdu → OnlyEndsWith .getSdu s .errState) ∧
    (∀ c, CurrentEntry s c → (slotAt s c).kind = .sdu →
      exec .getSdu s = .next
        { s with results := { s.results with r0 := word (slotAt s c).off, r1 := word (slotAt s c).len,
                                             r2 := (slotAt s c).lcid.setWidth 32 }, code := .ok })

/-- R251: what SERIALIZE writes and PARSE reads back, with padding removed, is the build's CEs in insertion order, then
its SDUs in insertion order, with their LCIDs, lengths and payload bytes. `m` is RXBUF with the block copied into it. The
slots in use after PARSE are what ITER_NEXT returns (IterNextReturnsEntries), as many as the block has subheaders. -/
def Obligations.SerializedBuildsParseBack : Prop :=
  ∀ (s t : State) (m : Memory), RunInv s → GeneralBuild s → AllPopulated s → exec .serialize s = .next t →
    (∀ a, a < s.totalLen → m.read a = t.txbuf.read a) →
    ∃ v, thenRun (exec (.initRx (word s.totalLen)) { t with rxbuf := m }) (exec .parse) = .next v ∧
      v.code = .ok ∧ v.count = (subEntries s).length ∧
      ((slotsInUse v).filter fun x => decide (x.kind ≠ .padding)).map (entryView m) =
        (ceSlots s ++ sduSlots s).map (entryView s.sdubuf)

/-! ### RAR container (44_rar) -/

/-- R273 and R274: RAR_APPEND and RAR_REMOVE_LAST. -/
def Obligations.RarAppendAndRemove : Prop :=
  ∀ s : State,
    (¬ RarBuild s → OnlyEndsWith .rarAppend s .errState ∧ OnlyEndsWith .rarRemoveLast s .errState) ∧
    (RarBuild s → LastUnpopulated s → OnlyEndsWith .rarAppend s .errState) ∧
    (RarBuild s → ¬ LastUnpopulated s → s.rcount = s.cfg.maxRarGrants → OnlyEndsWith .rarAppend s .errCapacity) ∧
    (RarBuild s → ¬ LastUnpopulated s → s.rcount ≠ s.cfg.maxRarGrants →
      exec .rarAppend s = .next
        { s with rslots := s.rslots.set s.rcount ⟨false, 0, 0, 0, 0⟩, rcount := s.rcount + 1,
                 results := { s.results with r0 := word s.rcount }, code := .ok }) ∧
    (RarBuild s → s.rcount = 0 → OnlyEndsWith .rarRemoveLast s .errState) ∧
    (RarBuild s → s.rcount ≠ 0 →
      exec .rarRemoveLast s = .next
        { s with remLen := s.remLen + (if (rslotAt s (s.rcount - 1)).populated then 7 else 0), rcount := s.rcount - 1,
                 results := { s.results with r0 := word (s.rcount - 1) }, code := .ok })

/-- R275 and R276: RAR_SET_BACKOFF and RAR_SET_GRANT. -/
def Obligations.RarBackoffAndGrantReserve : Prop :=
  ∀ (bi : BitVec 4) (rapid : BitVec 6) (ta : BitVec 11) (grant : BitVec 20) (tc : BitVec 16) (s : State),
    (¬ RarBuild s → OnlyEndsWith (.rarSetBackoff bi) s .errState ∧
      OnlyEndsWith (.rarSetGrant rapid ta grant tc) s .errState) ∧
    (RarBuild s → s.hasBi = false → s.remLen < 1 → OnlyEndsWith (.rarSetBackoff bi) s .errCapacity) ∧
    (RarBuild s → s.hasBi = false → 1 ≤ s.remLen →
      exec (.rarSetBackoff bi) s = .next { s with remLen := s.remLen - 1, hasBi := true, bi := bi, code := .ok }) ∧
    (RarBuild s → s.hasBi = true →
      exec (.rarSetBackoff bi) s = .next { s with hasBi := true, bi := bi, code := .ok }) ∧
    (RarBuild s → ¬ LastUnpopulated s → OnlyEndsWith (.rarSetGrant rapid ta grant tc) s .errState) ∧
    (RarBuild s → LastUnpopulated s → s.remLen < 7 → OnlyEndsWith (.rarSetGrant rapid ta grant tc) s .errCapacity) ∧
    (RarBuild s → LastUnpopulated s → 7 ≤ s.remLen →
      exec (.rarSetGrant rapid ta grant tc) s = .next
        { s with rslots := s.rslots.set (s.rcount - 1) ⟨true, rapid, ta, grant, tc⟩, remLen := s.remLen - 7,
                 code := .ok })

/-- R270: the RAR budget, and with it R277's claim that headers and payloads are TOTAL_LEN - REM_LEN bytes once every slot
is populated. -/
def Obligations.RarBudget : Prop :=
  ∀ s : State, RunInv s → RarBuild s →
    s.remLen + (if s.hasBi then 1 else 0) +
      7 * ((List.range s.rcount).filter fun k => (rslotAt s k).populated).length = s.totalLen ∧
    (¬ LastUnpopulated s →
      (rarHeaders s).length + (grantPayloads (rslotsInUse s)).length + s.remLen = s.totalLen)

/-- R277, R278 and R81: RAR_SERIALIZE writes the subheaders, the 48-bit payloads big-endian, then zeros; it refuses an
unpopulated last slot and an empty RAR, and a block longer than TOTAL_LEN fails ERR_SERIALIZE with MODE <- IDLE. The last
clause says where RAR_SERIALIZE completes; every RAR build of a run that is not refused meets its conditions (RarBudget, and
InvariantKept for a canonical TXBUF and the slot file's size). -/
def Obligations.RarSerializeWritesTheBlock : Prop :=
  ∀ s : State, s.rcount ≤ s.rslots.length →
    let sh : List Byte :=
      (if s.hasBi then [BitVec.ofNat 8 ((if 0 < s.rcount then 128 else 0) + s.bi.toNat)] else []) ++
      (rslotsInUse s).mapIdx fun j g => BitVec.ofNat 8 ((if j + 1 < s.rcount then 128 else 0) + 64 + g.rapid.toNat)
    let pl : List Byte := (rslotsInUse s).flatMap fun g =>
      (List.range 6).map fun b =>
        BitVec.ofNat 8 ((g.ta.toNat * 2 ^ 36 + g.grant.toNat * 2 ^ 16 + g.tc.toNat) / 2 ^ (8 * (5 - b)))
    let zeros : Nat := s.totalLen - (sh.length + pl.length)
    (¬ RarBuild s → OnlyEndsWith .rarSerialize s .errState) ∧
    (RarBuild s → LastUnpopulated s → OnlyEndsWith .rarSerialize s .errState) ∧
    (RarBuild s → s.hasBi = false → s.rcount = 0 → OnlyEndsWith .rarSerialize s .errState) ∧
    (RarBuild s → ¬ LastUnpopulated s → (s.hasBi = true ∨ s.rcount ≠ 0) → s.totalLen < sh.length + pl.length →
      exec .rarSerialize s = .next { s with mode := .idle, code := .errSerialize }) ∧
    (RarBuild s → ¬ LastUnpopulated s → (s.hasBi = true ∨ s.rcount ≠ 0) → sh.length + pl.length ≤ s.totalLen →
      s.totalLen ≤ s.cfg.maxTbBytes → BufferOk s.cfg s.txbuf →
      ∃ m, WrittenAt s.txbuf m 0 (sh ++ pl ++ List.replicate zeros 0#8) ∧
        exec .rarSerialize s = .next
          { s with txbuf := m, mode := .txDone,
                   results := { s.results with r0 := word s.totalLen, r1 := word sh.length, r2 := word zeros },
                   code := .ok })

/-- R281: RAR_PARSE commits the backoff indicator and the grants of a block with that structure, each payload's fields
from its 48 bits; a block without it empties the container and ends with ERR_CORRUPT. -/
def Obligations.RarParseDecodesOrEmpties : Prop :=
  ∀ s : State,
    let bytes := s.rxbuf.readN 0 s.totalLen
    let fits := fun (bi : Option (BitVec 4)) (rapids : List (BitVec 6)) (h : Nat) =>
      (s.totalLen = 0 ∧ bi = none ∧ rapids = [] ∧ h = 0) ∨
      (1 ≤ h ∧ h ≤ s.totalLen ∧ RarHeadersOf bi rapids (bytes.take h) ∧ rapids.length ≤ s.cfg.maxRarGrants ∧
        h + 6 * rapids.length ≤ s.totalLen)
    (¬ (s.ctype = .rar ∧ (s.mode = .rxReady ∨ s.mode = .rxParsed)) → OnlyEndsWith .rarParse s .errState) ∧
    (receiving .rar s = true → s.totalLen ≤ s.cfg.maxTbBytes → (∀ bi rapids h, ¬ fits bi rapids h) →
      exec .rarParse s = .next
        { s with rcount := 0, hasBi := false, bi := 0, corrupt := true, mode := .rxParsed, iter := 0, cur := none,
                 code := .errCorrupt }) ∧
    (∀ bi rapids h, receiving .rar s = true → s.totalLen ≤ s.cfg.maxTbBytes → fits bi rapids h →
      ∃ t, exec .rarParse s = .next t ∧
        t = { s with rslots := t.rslots, rcount := rapids.length, hasBi := bi.isSome, bi := bi.getD 0,
                     corrupt := false, mode := .rxParsed, iter := 0, cur := none,
                     results := { s.results with r0 := word rapids.length, r1 := if bi.isSome then 1 else 0 },
                     code := .ok } ∧
        t.rslots.length = s.rslots.length ∧
        (∀ j, rapids.length ≤ j → t.rslots[j]? = s.rslots[j]?) ∧
        (∀ j r, rapids[j]? = some r → j < s.rslots.length →
          let at' := fun b : Nat => s.rxbuf.read (h + 6 * j + b)
          let p : BitVec 48 := at' 0 ++ at' 1 ++ at' 2 ++ at' 3 ++ at' 4 ++ at' 5
          rslotAt t j = { populated := true, rapid := r, ta := p.extractLsb' 36 11, grant := p.extractLsb' 16 20,
                          tc := p.extractLsb' 0 16 }))

/-- R283: RAR_ITER_NEXT returns the backoff indicator first, then the grants, then ITER_END. -/
def Obligations.RarIterNextReturnsEntries : Prop :=
  ∀ s : State,
    let hb : Nat := if s.hasBi then 1 else 0
    (¬ RarParsed s → OnlyEndsWith .rarIterNext s .errState) ∧
    (RarParsed s → hb + s.rcount ≤ s.iter → OnlyEndsWith .rarIterNext s .iterEnd) ∧
    (RarParsed s → s.hasBi = true → s.iter = 0 →
      exec .rarIterNext s = .next
        { s with results := { s.results with r0 := 16, r1 := s.bi.setWidth 32, r2 := 0 }, cur := some 0, iter := 1,
                 code := .ok }) ∧
    (RarParsed s → ¬ (s.hasBi = true ∧ s.iter = 0) → s.iter < hb + s.rcount →
      exec .rarIterNext s = .next
        { s with results := { s.results with r0 := 17, r1 := (rslotAt s (s.iter - hb)).rapid.setWidth 32,
                                             r2 := word s.iter },
                 cur := some s.iter, iter := s.iter + 1, code := .ok })

/-- R284 and R285: RAR_GET_GRANT and RAR_GET_BACKOFF. -/
def Obligations.RarGettersDecode : Prop :=
  ∀ s : State,
    (¬ RarParsed s → OnlyEndsWith .rarGetGrant s .errState) ∧
    (RarParsed s → s.cur = none ∨ (s.hasBi = true ∧ s.cur = some 0) → OnlyEndsWith .rarGetGrant s .errState) ∧
    (∀ c, RarParsed s → s.cur = some c → ¬ (s.hasBi = true ∧ c = 0) →
      let g := rslotAt s (c - (if s.hasBi then 1 else 0))
      exec .rarGetGrant s = .next
        { s with results := { s.results with r0 := g.rapid.setWidth 32, r1 := g.ta.setWidth 32,
                                             r2 := g.grant.setWidth 32, r3 := g.tc.setWidth 32 }, code := .ok }) ∧
    (s.ctype ≠ .rar ∨ s.mode = .idle → OnlyEndsWith .rarGetBackoff s .errState) ∧
    (s.ctype = .rar → s.mode ≠ .idle →
      exec .rarGetBackoff s = .next
        { s with results := { s.results with r0 := (BitVec.ofBool s.hasBi).setWidth 32, r1 := s.bi.setWidth 32 },
                 code := .ok })

/-- What RAR_SERIALIZE writes and RAR_PARSE reads back is the backoff indicator and the grants of the build (from R277,
R281). `m` is RXBUF with the block copied into it. -/
def Obligations.RarRoundTrip : Prop :=
  ∀ (s t : State) (m : Memory), RunInv s → RarBuild s → exec .rarSerialize s = .next t → t.code = .ok →
    (∀ a, a < s.totalLen → m.read a = t.txbuf.read a) →
    ∃ v, thenRun (exec (.rarInitRx (word s.totalLen)) { t with rxbuf := m }) (exec .rarParse) = .next v ∧
      v.code = .ok ∧ v.hasBi = s.hasBi ∧ v.bi = s.bi ∧ v.rcount = s.rcount ∧ rslotsInUse v = rslotsInUse s

/-! ### The whole machine -/

/-- R304, with RAR_SET_BACKOFF and RAR_SET_GRANT, which its table leaves out, from R275 and R276: the codes a command can
end with; and that no build made through the commands ends with ERR_SERIALIZE. -/
def Obligations.CommandsEndWithListedCodes : Prop :=
  ∀ (i : Instr) (s t : State), exec i s = .next t →
    t.code ∈ endCodes i ∧ (RunInv s → t.code ≠ .errSerialize)

/-- R302: a command that does not end with OK writes STATUS.CODE and nothing else, except what the three exceptions name:
a corrupt parse, a failed serialize, and SDUBUF at SDU_FILL and above with ERR_SOURCE (whose answer is taken from the
source's inputs, log 5). So no failing command writes a RESULT register. -/
def Obligations.FailuresChangeOnlyStatus : Prop :=
  ∀ (i : Instr) (s t : State), exec i s = .next t →
    (t.code = .errCapacity ∨ t.code = .errState ∨ t.code = .errIllegal ∨ t.code = .errDirection ∨ t.code = .iterEnd →
      t = { s with code := t.code }) ∧
    (t.code = .errCorrupt → (i = .parse ∨ i = .rarParse) ∧
      t = { s with count := t.count, rcount := t.rcount, hasBi := t.hasBi, bi := t.bi, corrupt := true,
                   mode := .rxParsed, iter := 0, cur := none, code := .errCorrupt } ∧
      (i = .parse → t.count = 0 ∧ t.rcount = s.rcount ∧ t.hasBi = s.hasBi ∧ t.bi = s.bi) ∧
      (i = .rarParse → t.count = s.count ∧ t.rcount = 0 ∧ t.hasBi = false ∧ t.bi = 0)) ∧
    (t.code = .errSerialize → (i = .serialize ∨ i = .rarSerialize) ∧
      t = { s with mode := .idle, code := .errSerialize }) ∧
    (t.code = .errSource → (∃ lcid n, i = .setSdu lcid n) ∧
      t = { s with sdubuf := t.sdubuf, source := t.source, draws := t.draws, code := .errSource } ∧
      ∀ a, a < s.sduFill → t.sdubuf.read a = s.sdubuf.read a)

/-- What commands do to the buffers (20_memory R81, R82, R83): none writes RXBUF; a serialize writes TXBUF only below
TOTAL_LEN and nothing else writes it; SET_SDU writes SDUBUF only at SDU_FILL and above and nothing else writes it. -/
def Obligations.BuffersFrame : Prop :=
  ∀ (i : Instr) (s t : State), exec i s = .next t →
    t.rxbuf = s.rxbuf ∧
    (storesToBuffer i = false → SameBuffers s t) ∧
    (∀ a, s.totalLen ≤ a → t.txbuf.read a = s.txbuf.read a) ∧
    ((∃ lcid n, i = .setSdu lcid n) → t.txbuf = s.txbuf ∧ ∀ a, a < s.sduFill → t.sdubuf.read a = s.sdubuf.read a) ∧
    (i = .serialize ∨ i = .rarSerialize → t.sdubuf = s.sdubuf)

/-- Which commands change which register: each register of 10_state is unchanged by every command its rules do not name
as a writer. Two clauses are the model's choice: a SourceRead takes the next answer the state lists, and a free one with
none listed (log 5); PARSE leaves a slot's transmit-only fields as they were (log 18). -/
def Obligations.EachRegisterHasItsWriters : Prop :=
  ∀ (i : Instr) (s t : State), exec i s = .next t →
    let setsCe : Prop := ceCommand i ≠ none
    let setsSdu : Prop := ∃ lcid n, i = .setSdu lcid n
    let setsGrant : Prop := ∃ rapid ta grant tc, i = .rarSetGrant rapid ta grant tc
    let setsBackoff : Prop := ∃ bi, i = .rarSetBackoff bi
    let init : Prop := isInit i = true
    t.cfg = s.cfg ∧ t.hostq = s.hostq ∧
    (t.pend = s.pend ∧ t.pendWord0 = s.pendWord0 ∧ t.pendLeft = s.pendLeft ∧ t.pendOps = s.pendOps) ∧
    (¬ setsSdu → t.source = s.source ∧ t.draws = s.draws) ∧
    (¬ init → t.totalLen = s.totalLen ∧ t.ctype = s.ctype ∧ t.padPolicy = s.padPolicy) ∧
    (¬ init → i ∉ [.serialize, .rarSerialize, .parse, .rarParse] → t.mode = s.mode) ∧
    (¬ init → i ∉ [.parse, .rarParse] → t.corrupt = s.corrupt) ∧
    (¬ init → i ∉ [.parse, .rarParse, .iterNext, .rarIterNext] → t.iter = s.iter ∧ t.cur = s.cur) ∧
    (¬ init → i ∉ [.append, .removeLast, .parse] → t.count = s.count) ∧
    (¬ init → i ≠ .removeLast → ¬ setsSdu → t.lastSdu = s.lastSdu ∧ t.sduFill = s.sduFill) ∧
    (¬ init → i ∉ [.removeLast, .rarRemoveLast] → ¬ setsSdu → ¬ setsCe → ¬ setsGrant → ¬ setsBackoff →
      t.remLen = s.remLen) ∧
    (i ∉ [.append, .parse] → ¬ setsSdu → ¬ setsCe → t.slots = s.slots) ∧
    (¬ init → i ∉ [.rarAppend, .rarRemoveLast, .rarParse] → t.rcount = s.rcount) ∧
    (¬ init → i ≠ .rarParse → ¬ setsBackoff → t.hasBi = s.hasBi ∧ t.bi = s.bi) ∧
    (i ∉ [.rarAppend, .rarParse] → ¬ setsGrant → t.rslots = s.rslots) ∧
    (∀ lcid n, i = .setSdu lcid n → (t.source = s.source ∧ t.draws = s.draws) ∨
      (t.source = (sourceRead lcid (sduRequest n s) s).2.source ∧
        t.draws = (sourceRead lcid (sduRequest n s) s).2.draws)) ∧
    (∀ lcid mx,
      (∀ a rest, s.source = a :: rest → sourceRead lcid mx s = (a, { s with source := rest })) ∧
      (s.source = [] → sourceRead lcid mx s = (freeSourceAnswer s.draws lcid mx, { s with draws := s.draws + 1 }))) ∧
    (i = .parse → ∀ k, (slotAt t k).remBefore = (slotAt s k).remBefore ∧
      (slotAt t k).lastBefore = (slotAt s k).lastBefore ∧ (slotAt t k).fillBefore = (slotAt s k).fillBefore)

/-- R347: PAD_POLICY has no effect: whatever it holds, every command answers the same and leaves the same state, PAD_POLICY
aside; so does INIT_TX with the other operand. -/
def Obligations.PadPolicyHasNoEffect : Prop :=
  (∀ (i : Instr) (s : State) (p : Bool),
    exec i { s with padPolicy := p } =
      mapNext (fun t => if isInit i && decide (t.code = .ok) then t else { t with padPolicy := p }) (exec i s)) ∧
  (∀ (p q : Bool) (n : Word) (s : State),
    mapNext (fun t => { t with padPolicy := false }) (exec (.initTx p n) s) =
      mapNext (fun t => { t with padPolicy := false }) (exec (.initTx q n) s))

/-- R45 and R44: no command reads STATUS.CODE, CORRUPT or a RESULT register. With another STATUS.CODE every command answers
exactly the same; with another CORRUPT the same but for CORRUPT itself; and whatever the RESULT registers hold, a command
writes the same values to the same ones of them, RESULT0 up to the last it names, keeps the others, and does everything
else the same. -/
def Obligations.StatusAndResultsAreNotRead : Prop :=
  ∀ (i : Instr) (s : State),
    (∀ c : Status, exec i { s with code := c } = exec i s) ∧
    (∀ b : Bool,
      mapNext (fun t => { t with corrupt := false }) (exec i { s with corrupt := b }) =
        mapNext (fun t => { t with corrupt := false }) (exec i s)) ∧
    (∃ xs : List Word, ∀ r : Results,
      exec i { s with results := r } = mapNext (fun t => { t with results := r.write xs }) (exec i s))

/-- The host's sequences of R97 leave no EMPTY slot: from a build whose last slot is populated and that has room for a
slot, ADD_SDU and ADD_CE end with the new slot populated, or with COUNT, REM_LEN, LAST_SDU and SDU_FILL as before. -/
def Obligations.PseudoCommandsLeaveNoEmptySlot : Prop :=
  ∀ s : State, RunInv s → GeneralBuild s → ¬ LastEmpty s → s.count ≠ s.cfg.maxSubpdus →
    let kept := fun t : State =>
      t.count = s.count ∧ t.remLen = s.remLen ∧ t.lastSdu = s.lastSdu ∧ t.sduFill = s.sduFill
    (∀ lcid n, ∃ t, addSdu lcid n s = .next t ∧ ¬ LastEmpty t ∧
      (kept t ∨ (t.count = s.count + 1 ∧ (slotAt t s.count).kind = .sdu))) ∧
    (∀ i kind p, ceCommand i = some (kind, p) → ∃ t, addCe i s = .next t ∧ ¬ LastEmpty t ∧
      (kept t ∨ (t.count = s.count + 1 ∧ (slotAt t s.count).kind = kind)))

/-- R96: every command has a written form, which reads back as the command, and what reads as a command is a legal one. -/
def Obligations.AssemblerRoundTrip : Prop :=
  (∀ i : Instr, WellFormed i → ∃ l, disassemble i = some l ∧ assemble l = some i) ∧
  (∀ (l : AsmLine) (i : Instr), assemble l = some i → WellFormed i)
end

