-- ==== Sys2Proof/Laws/State.lean ====
section
/-! SUPPORT. One lemma per field per named update of the state, each true by rfl. -/

namespace Sys2Proof.Machine

/-! ### withCode -/

@[simp] theorem State.withCode_cfg (s : State) (c : Status) : (s.withCode c).cfg = s.cfg := rfl
@[simp] theorem State.withCode_code (s : State) (c : Status) : (s.withCode c).code = c := rfl
@[simp] theorem State.withCode_corrupt (s : State) (c : Status) : (s.withCode c).corrupt = s.corrupt := rfl
@[simp] theorem State.withCode_results (s : State) (c : Status) : (s.withCode c).results = s.results := rfl
@[simp] theorem State.withCode_mode (s : State) (c : Status) : (s.withCode c).mode = s.mode := rfl
@[simp] theorem State.withCode_ctype (s : State) (c : Status) : (s.withCode c).ctype = s.ctype := rfl
@[simp] theorem State.withCode_padPolicy (s : State) (c : Status) : (s.withCode c).padPolicy = s.padPolicy := rfl
@[simp] theorem State.withCode_totalLen (s : State) (c : Status) : (s.withCode c).totalLen = s.totalLen := rfl
@[simp] theorem State.withCode_remLen (s : State) (c : Status) : (s.withCode c).remLen = s.remLen := rfl
@[simp] theorem State.withCode_count (s : State) (c : Status) : (s.withCode c).count = s.count := rfl
@[simp] theorem State.withCode_lastSdu (s : State) (c : Status) : (s.withCode c).lastSdu = s.lastSdu := rfl
@[simp] theorem State.withCode_iter (s : State) (c : Status) : (s.withCode c).iter = s.iter := rfl
@[simp] theorem State.withCode_cur (s : State) (c : Status) : (s.withCode c).cur = s.cur := rfl
@[simp] theorem State.withCode_sduFill (s : State) (c : Status) : (s.withCode c).sduFill = s.sduFill := rfl
@[simp] theorem State.withCode_slots (s : State) (c : Status) : (s.withCode c).slots = s.slots := rfl
@[simp] theorem State.withCode_hasBi (s : State) (c : Status) : (s.withCode c).hasBi = s.hasBi := rfl
@[simp] theorem State.withCode_bi (s : State) (c : Status) : (s.withCode c).bi = s.bi := rfl
@[simp] theorem State.withCode_rcount (s : State) (c : Status) : (s.withCode c).rcount = s.rcount := rfl
@[simp] theorem State.withCode_rslots (s : State) (c : Status) : (s.withCode c).rslots = s.rslots := rfl
@[simp] theorem State.withCode_pend (s : State) (c : Status) : (s.withCode c).pend = s.pend := rfl
@[simp] theorem State.withCode_pendWord0 (s : State) (c : Status) : (s.withCode c).pendWord0 = s.pendWord0 := rfl
@[simp] theorem State.withCode_pendLeft (s : State) (c : Status) : (s.withCode c).pendLeft = s.pendLeft := rfl
@[simp] theorem State.withCode_pendOps (s : State) (c : Status) : (s.withCode c).pendOps = s.pendOps := rfl
@[simp] theorem State.withCode_txbuf (s : State) (c : Status) : (s.withCode c).txbuf = s.txbuf := rfl
@[simp] theorem State.withCode_rxbuf (s : State) (c : Status) : (s.withCode c).rxbuf = s.rxbuf := rfl
@[simp] theorem State.withCode_sdubuf (s : State) (c : Status) : (s.withCode c).sdubuf = s.sdubuf := rfl
@[simp] theorem State.withCode_hostq (s : State) (c : Status) : (s.withCode c).hostq = s.hostq := rfl
@[simp] theorem State.withCode_source (s : State) (c : Status) : (s.withCode c).source = s.source := rfl
@[simp] theorem State.withCode_draws (s : State) (c : Status) : (s.withCode c).draws = s.draws := rfl

/-! ### withResults -/

@[simp] theorem State.withResults_cfg (s : State) (xs : List Word) : (s.withResults xs).cfg = s.cfg := rfl
@[simp] theorem State.withResults_code (s : State) (xs : List Word) : (s.withResults xs).code = s.code := rfl
@[simp] theorem State.withResults_corrupt (s : State) (xs : List Word) : (s.withResults xs).corrupt = s.corrupt := rfl
@[simp] theorem State.withResults_results (s : State) (xs : List Word) : (s.withResults xs).results = s.results.write xs := rfl
@[simp] theorem State.withResults_mode (s : State) (xs : List Word) : (s.withResults xs).mode = s.mode := rfl
@[simp] theorem State.withResults_ctype (s : State) (xs : List Word) : (s.withResults xs).ctype = s.ctype := rfl
@[simp] theorem State.withResults_padPolicy (s : State) (xs : List Word) : (s.withResults xs).padPolicy = s.padPolicy := rfl
@[simp] theorem State.withResults_totalLen (s : State) (xs : List Word) : (s.withResults xs).totalLen = s.totalLen := rfl
@[simp] theorem State.withResults_remLen (s : State) (xs : List Word) : (s.withResults xs).remLen = s.remLen := rfl
@[simp] theorem State.withResults_count (s : State) (xs : List Word) : (s.withResults xs).count = s.count := rfl
@[simp] theorem State.withResults_lastSdu (s : State) (xs : List Word) : (s.withResults xs).lastSdu = s.lastSdu := rfl
@[simp] theorem State.withResults_iter (s : State) (xs : List Word) : (s.withResults xs).iter = s.iter := rfl
@[simp] theorem State.withResults_cur (s : State) (xs : List Word) : (s.withResults xs).cur = s.cur := rfl
@[simp] theorem State.withResults_sduFill (s : State) (xs : List Word) : (s.withResults xs).sduFill = s.sduFill := rfl
@[simp] theorem State.withResults_slots (s : State) (xs : List Word) : (s.withResults xs).slots = s.slots := rfl
@[simp] theorem State.withResults_hasBi (s : State) (xs : List Word) : (s.withResults xs).hasBi = s.hasBi := rfl
@[simp] theorem State.withResults_bi (s : State) (xs : List Word) : (s.withResults xs).bi = s.bi := rfl
@[simp] theorem State.withResults_rcount (s : State) (xs : List Word) : (s.withResults xs).rcount = s.rcount := rfl
@[simp] theorem State.withResults_rslots (s : State) (xs : List Word) : (s.withResults xs).rslots = s.rslots := rfl
@[simp] theorem State.withResults_pend (s : State) (xs : List Word) : (s.withResults xs).pend = s.pend := rfl
@[simp] theorem State.withResults_pendWord0 (s : State) (xs : List Word) : (s.withResults xs).pendWord0 = s.pendWord0 := rfl
@[simp] theorem State.withResults_pendLeft (s : State) (xs : List Word) : (s.withResults xs).pendLeft = s.pendLeft := rfl
@[simp] theorem State.withResults_pendOps (s : State) (xs : List Word) : (s.withResults xs).pendOps = s.pendOps := rfl
@[simp] theorem State.withResults_txbuf (s : State) (xs : List Word) : (s.withResults xs).txbuf = s.txbuf := rfl
@[simp] theorem State.withResults_rxbuf (s : State) (xs : List Word) : (s.withResults xs).rxbuf = s.rxbuf := rfl
@[simp] theorem State.withResults_sdubuf (s : State) (xs : List Word) : (s.withResults xs).sdubuf = s.sdubuf := rfl
@[simp] theorem State.withResults_hostq (s : State) (xs : List Word) : (s.withResults xs).hostq = s.hostq := rfl
@[simp] theorem State.withResults_source (s : State) (xs : List Word) : (s.withResults xs).source = s.source := rfl
@[simp] theorem State.withResults_draws (s : State) (xs : List Word) : (s.withResults xs).draws = s.draws := rfl

/-! ### setSlot -/

@[simp] theorem State.setSlot_cfg (s : State) (k : Nat) (x : Slot) : (s.setSlot k x).cfg = s.cfg := rfl
@[simp] theorem State.setSlot_code (s : State) (k : Nat) (x : Slot) : (s.setSlot k x).code = s.code := rfl
@[simp] theorem State.setSlot_corrupt (s : State) (k : Nat) (x : Slot) : (s.setSlot k x).corrupt = s.corrupt := rfl
@[simp] theorem State.setSlot_results (s : State) (k : Nat) (x : Slot) : (s.setSlot k x).results = s.results := rfl
@[simp] theorem State.setSlot_mode (s : State) (k : Nat) (x : Slot) : (s.setSlot k x).mode = s.mode := rfl
@[simp] theorem State.setSlot_ctype (s : State) (k : Nat) (x : Slot) : (s.setSlot k x).ctype = s.ctype := rfl
@[simp] theorem State.setSlot_padPolicy (s : State) (k : Nat) (x : Slot) : (s.setSlot k x).padPolicy = s.padPolicy := rfl
@[simp] theorem State.setSlot_totalLen (s : State) (k : Nat) (x : Slot) : (s.setSlot k x).totalLen = s.totalLen := rfl
@[simp] theorem State.setSlot_remLen (s : State) (k : Nat) (x : Slot) : (s.setSlot k x).remLen = s.remLen := rfl
@[simp] theorem State.setSlot_count (s : State) (k : Nat) (x : Slot) : (s.setSlot k x).count = s.count := rfl
@[simp] theorem State.setSlot_lastSdu (s : State) (k : Nat) (x : Slot) : (s.setSlot k x).lastSdu = s.lastSdu := rfl
@[simp] theorem State.setSlot_iter (s : State) (k : Nat) (x : Slot) : (s.setSlot k x).iter = s.iter := rfl
@[simp] theorem State.setSlot_cur (s : State) (k : Nat) (x : Slot) : (s.setSlot k x).cur = s.cur := rfl
@[simp] theorem State.setSlot_sduFill (s : State) (k : Nat) (x : Slot) : (s.setSlot k x).sduFill = s.sduFill := rfl
@[simp] theorem State.setSlot_slots (s : State) (k : Nat) (x : Slot) : (s.setSlot k x).slots = s.slots.set k x := rfl
@[simp] theorem State.setSlot_hasBi (s : State) (k : Nat) (x : Slot) : (s.setSlot k x).hasBi = s.hasBi := rfl
@[simp] theorem State.setSlot_bi (s : State) (k : Nat) (x : Slot) : (s.setSlot k x).bi = s.bi := rfl
@[simp] theorem State.setSlot_rcount (s : State) (k : Nat) (x : Slot) : (s.setSlot k x).rcount = s.rcount := rfl
@[simp] theorem State.setSlot_rslots (s : State) (k : Nat) (x : Slot) : (s.setSlot k x).rslots = s.rslots := rfl
@[simp] theorem State.setSlot_pend (s : State) (k : Nat) (x : Slot) : (s.setSlot k x).pend = s.pend := rfl
@[simp] theorem State.setSlot_pendWord0 (s : State) (k : Nat) (x : Slot) : (s.setSlot k x).pendWord0 = s.pendWord0 := rfl
@[simp] theorem State.setSlot_pendLeft (s : State) (k : Nat) (x : Slot) : (s.setSlot k x).pendLeft = s.pendLeft := rfl
@[simp] theorem State.setSlot_pendOps (s : State) (k : Nat) (x : Slot) : (s.setSlot k x).pendOps = s.pendOps := rfl
@[simp] theorem State.setSlot_txbuf (s : State) (k : Nat) (x : Slot) : (s.setSlot k x).txbuf = s.txbuf := rfl
@[simp] theorem State.setSlot_rxbuf (s : State) (k : Nat) (x : Slot) : (s.setSlot k x).rxbuf = s.rxbuf := rfl
@[simp] theorem State.setSlot_sdubuf (s : State) (k : Nat) (x : Slot) : (s.setSlot k x).sdubuf = s.sdubuf := rfl
@[simp] theorem State.setSlot_hostq (s : State) (k : Nat) (x : Slot) : (s.setSlot k x).hostq = s.hostq := rfl
@[simp] theorem State.setSlot_source (s : State) (k : Nat) (x : Slot) : (s.setSlot k x).source = s.source := rfl
@[simp] theorem State.setSlot_draws (s : State) (k : Nat) (x : Slot) : (s.setSlot k x).draws = s.draws := rfl

/-! ### setRSlot -/

@[simp] theorem State.setRSlot_cfg (s : State) (k : Nat) (x : RSlot) : (s.setRSlot k x).cfg = s.cfg := rfl
@[simp] theorem State.setRSlot_code (s : State) (k : Nat) (x : RSlot) : (s.setRSlot k x).code = s.code := rfl
@[simp] theorem State.setRSlot_corrupt (s : State) (k : Nat) (x : RSlot) : (s.setRSlot k x).corrupt = s.corrupt := rfl
@[simp] theorem State.setRSlot_results (s : State) (k : Nat) (x : RSlot) : (s.setRSlot k x).results = s.results := rfl
@[simp] theorem State.setRSlot_mode (s : State) (k : Nat) (x : RSlot) : (s.setRSlot k x).mode = s.mode := rfl
@[simp] theorem State.setRSlot_ctype (s : State) (k : Nat) (x : RSlot) : (s.setRSlot k x).ctype = s.ctype := rfl
@[simp] theorem State.setRSlot_padPolicy (s : State) (k : Nat) (x : RSlot) : (s.setRSlot k x).padPolicy = s.padPolicy := rfl
@[simp] theorem State.setRSlot_totalLen (s : State) (k : Nat) (x : RSlot) : (s.setRSlot k x).totalLen = s.totalLen := rfl
@[simp] theorem State.setRSlot_remLen (s : State) (k : Nat) (x : RSlot) : (s.setRSlot k x).remLen = s.remLen := rfl
@[simp] theorem State.setRSlot_count (s : State) (k : Nat) (x : RSlot) : (s.setRSlot k x).count = s.count := rfl
@[simp] theorem State.setRSlot_lastSdu (s : State) (k : Nat) (x : RSlot) : (s.setRSlot k x).lastSdu = s.lastSdu := rfl
@[simp] theorem State.setRSlot_iter (s : State) (k : Nat) (x : RSlot) : (s.setRSlot k x).iter = s.iter := rfl
@[simp] theorem State.setRSlot_cur (s : State) (k : Nat) (x : RSlot) : (s.setRSlot k x).cur = s.cur := rfl
@[simp] theorem State.setRSlot_sduFill (s : State) (k : Nat) (x : RSlot) : (s.setRSlot k x).sduFill = s.sduFill := rfl
@[simp] theorem State.setRSlot_slots (s : State) (k : Nat) (x : RSlot) : (s.setRSlot k x).slots = s.slots := rfl
@[simp] theorem State.setRSlot_hasBi (s : State) (k : Nat) (x : RSlot) : (s.setRSlot k x).hasBi = s.hasBi := rfl
@[simp] theorem State.setRSlot_bi (s : State) (k : Nat) (x : RSlot) : (s.setRSlot k x).bi = s.bi := rfl
@[simp] theorem State.setRSlot_rcount (s : State) (k : Nat) (x : RSlot) : (s.setRSlot k x).rcount = s.rcount := rfl
@[simp] theorem State.setRSlot_rslots (s : State) (k : Nat) (x : RSlot) : (s.setRSlot k x).rslots = s.rslots.set k x := rfl
@[simp] theorem State.setRSlot_pend (s : State) (k : Nat) (x : RSlot) : (s.setRSlot k x).pend = s.pend := rfl
@[simp] theorem State.setRSlot_pendWord0 (s : State) (k : Nat) (x : RSlot) : (s.setRSlot k x).pendWord0 = s.pendWord0 := rfl
@[simp] theorem State.setRSlot_pendLeft (s : State) (k : Nat) (x : RSlot) : (s.setRSlot k x).pendLeft = s.pendLeft := rfl
@[simp] theorem State.setRSlot_pendOps (s : State) (k : Nat) (x : RSlot) : (s.setRSlot k x).pendOps = s.pendOps := rfl
@[simp] theorem State.setRSlot_txbuf (s : State) (k : Nat) (x : RSlot) : (s.setRSlot k x).txbuf = s.txbuf := rfl
@[simp] theorem State.setRSlot_rxbuf (s : State) (k : Nat) (x : RSlot) : (s.setRSlot k x).rxbuf = s.rxbuf := rfl
@[simp] theorem State.setRSlot_sdubuf (s : State) (k : Nat) (x : RSlot) : (s.setRSlot k x).sdubuf = s.sdubuf := rfl
@[simp] theorem State.setRSlot_hostq (s : State) (k : Nat) (x : RSlot) : (s.setRSlot k x).hostq = s.hostq := rfl
@[simp] theorem State.setRSlot_source (s : State) (k : Nat) (x : RSlot) : (s.setRSlot k x).source = s.source := rfl
@[simp] theorem State.setRSlot_draws (s : State) (k : Nat) (x : RSlot) : (s.setRSlot k x).draws = s.draws := rfl

/-! ### initContainer -/

@[simp] theorem State.initContainer_cfg (s : State) (ct : CType) (m : Mode) (p : Bool) (n r : Nat) : (s.initContainer ct m p n r).cfg = s.cfg := rfl
@[simp] theorem State.initContainer_code (s : State) (ct : CType) (m : Mode) (p : Bool) (n r : Nat) : (s.initContainer ct m p n r).code = s.code := rfl
@[simp] theorem State.initContainer_corrupt (s : State) (ct : CType) (m : Mode) (p : Bool) (n r : Nat) : (s.initContainer ct m p n r).corrupt = false := rfl
@[simp] theorem State.initContainer_results (s : State) (ct : CType) (m : Mode) (p : Bool) (n r : Nat) : (s.initContainer ct m p n r).results = s.results := rfl
@[simp] theorem State.initContainer_mode (s : State) (ct : CType) (m : Mode) (p : Bool) (n r : Nat) : (s.initContainer ct m p n r).mode = m := rfl
@[simp] theorem State.initContainer_ctype (s : State) (ct : CType) (m : Mode) (p : Bool) (n r : Nat) : (s.initContainer ct m p n r).ctype = ct := rfl
@[simp] theorem State.initContainer_padPolicy (s : State) (ct : CType) (m : Mode) (p : Bool) (n r : Nat) : (s.initContainer ct m p n r).padPolicy = p := rfl
@[simp] theorem State.initContainer_totalLen (s : State) (ct : CType) (m : Mode) (p : Bool) (n r : Nat) : (s.initContainer ct m p n r).totalLen = n := rfl
@[simp] theorem State.initContainer_remLen (s : State) (ct : CType) (m : Mode) (p : Bool) (n r : Nat) : (s.initContainer ct m p n r).remLen = r := rfl
@[simp] theorem State.initContainer_count (s : State) (ct : CType) (m : Mode) (p : Bool) (n r : Nat) : (s.initContainer ct m p n r).count = 0 := rfl
@[simp] theorem State.initContainer_lastSdu (s : State) (ct : CType) (m : Mode) (p : Bool) (n r : Nat) : (s.initContainer ct m p n r).lastSdu = none := rfl
@[simp] theorem State.initContainer_iter (s : State) (ct : CType) (m : Mode) (p : Bool) (n r : Nat) : (s.initContainer ct m p n r).iter = 0 := rfl
@[simp] theorem State.initContainer_cur (s : State) (ct : CType) (m : Mode) (p : Bool) (n r : Nat) : (s.initContainer ct m p n r).cur = none := rfl
@[simp] theorem State.initContainer_sduFill (s : State) (ct : CType) (m : Mode) (p : Bool) (n r : Nat) : (s.initContainer ct m p n r).sduFill = 0 := rfl
@[simp] theorem State.initContainer_slots (s : State) (ct : CType) (m : Mode) (p : Bool) (n r : Nat) : (s.initContainer ct m p n r).slots = s.slots := rfl
@[simp] theorem State.initContainer_hasBi (s : State) (ct : CType) (m : Mode) (p : Bool) (n r : Nat) : (s.initContainer ct m p n r).hasBi = false := rfl
@[simp] theorem State.initContainer_bi (s : State) (ct : CType) (m : Mode) (p : Bool) (n r : Nat) : (s.initContainer ct m p n r).bi = 0 := rfl
@[simp] theorem State.initContainer_rcount (s : State) (ct : CType) (m : Mode) (p : Bool) (n r : Nat) : (s.initContainer ct m p n r).rcount = 0 := rfl
@[simp] theorem State.initContainer_rslots (s : State) (ct : CType) (m : Mode) (p : Bool) (n r : Nat) : (s.initContainer ct m p n r).rslots = s.rslots := rfl
@[simp] theorem State.initContainer_pend (s : State) (ct : CType) (m : Mode) (p : Bool) (n r : Nat) : (s.initContainer ct m p n r).pend = s.pend := rfl
@[simp] theorem State.initContainer_pendWord0 (s : State) (ct : CType) (m : Mode) (p : Bool) (n r : Nat) : (s.initContainer ct m p n r).pendWord0 = s.pendWord0 := rfl
@[simp] theorem State.initContainer_pendLeft (s : State) (ct : CType) (m : Mode) (p : Bool) (n r : Nat) : (s.initContainer ct m p n r).pendLeft = s.pendLeft := rfl
@[simp] theorem State.initContainer_pendOps (s : State) (ct : CType) (m : Mode) (p : Bool) (n r : Nat) : (s.initContainer ct m p n r).pendOps = s.pendOps := rfl
@[simp] theorem State.initContainer_txbuf (s : State) (ct : CType) (m : Mode) (p : Bool) (n r : Nat) : (s.initContainer ct m p n r).txbuf = s.txbuf := rfl
@[simp] theorem State.initContainer_rxbuf (s : State) (ct : CType) (m : Mode) (p : Bool) (n r : Nat) : (s.initContainer ct m p n r).rxbuf = s.rxbuf := rfl
@[simp] theorem State.initContainer_sdubuf (s : State) (ct : CType) (m : Mode) (p : Bool) (n r : Nat) : (s.initContainer ct m p n r).sdubuf = s.sdubuf := rfl
@[simp] theorem State.initContainer_hostq (s : State) (ct : CType) (m : Mode) (p : Bool) (n r : Nat) : (s.initContainer ct m p n r).hostq = s.hostq := rfl
@[simp] theorem State.initContainer_source (s : State) (ct : CType) (m : Mode) (p : Bool) (n r : Nat) : (s.initContainer ct m p n r).source = s.source := rfl
@[simp] theorem State.initContainer_draws (s : State) (ct : CType) (m : Mode) (p : Bool) (n r : Nat) : (s.initContainer ct m p n r).draws = s.draws := rfl

/-! ### The draws of a reset -/

@[simp] theorem drawnFile_nil {α : Type} (n : Nat) (zero : α) : drawnFile n zero [] = List.replicate n zero := by
  simp [drawnFile]

@[simp] theorem drawnFile_length {α : Type} (n : Nat) (zero : α) (drawn : List α) :
    (drawnFile n zero drawn).length = n := by
  simp [drawnFile]; omega

/-- A drawn file holds the drawn entry at each index, the zero one where none is drawn. -/
theorem drawnFile_getElem? {α : Type} (n k : Nat) (zero : α) (drawn : List α) (h : k < n) :
    (drawnFile n zero drawn)[k]? = some (drawn.getD k zero) := by
  unfold drawnFile
  rcases Nat.lt_or_ge k drawn.length with hk | hk
  · rw [List.getElem?_append_left (by simp; omega), List.getElem?_take_of_lt h]
    simp [List.getD, hk]
  · rw [List.getElem?_append_right (by simp; omega)]
    simp [List.getD, hk, List.getElem?_replicate]
    omega

/-! ### resetBlock -/

@[simp] theorem State.resetBlock_cfg (s : State) (d : ResetDraw) : (s.resetBlock d).cfg = s.cfg := rfl
@[simp] theorem State.resetBlock_code (s : State) (d : ResetDraw) : (s.resetBlock d).code = .ok := rfl
@[simp] theorem State.resetBlock_corrupt (s : State) (d : ResetDraw) : (s.resetBlock d).corrupt = false := rfl
@[simp] theorem State.resetBlock_results (s : State) (d : ResetDraw) : (s.resetBlock d).results = ⟨0, 0, 0, 0, 0, 0, 0, 0, 0⟩ := rfl
@[simp] theorem State.resetBlock_mode (s : State) (d : ResetDraw) : (s.resetBlock d).mode = .idle := rfl
@[simp] theorem State.resetBlock_ctype (s : State) (d : ResetDraw) : (s.resetBlock d).ctype = .general := rfl
@[simp] theorem State.resetBlock_padPolicy (s : State) (d : ResetDraw) : (s.resetBlock d).padPolicy = false := rfl
@[simp] theorem State.resetBlock_totalLen (s : State) (d : ResetDraw) : (s.resetBlock d).totalLen = 0 := rfl
@[simp] theorem State.resetBlock_remLen (s : State) (d : ResetDraw) : (s.resetBlock d).remLen = 0 := rfl
@[simp] theorem State.resetBlock_count (s : State) (d : ResetDraw) : (s.resetBlock d).count = 0 := rfl
@[simp] theorem State.resetBlock_lastSdu (s : State) (d : ResetDraw) : (s.resetBlock d).lastSdu = none := rfl
@[simp] theorem State.resetBlock_iter (s : State) (d : ResetDraw) : (s.resetBlock d).iter = 0 := rfl
@[simp] theorem State.resetBlock_cur (s : State) (d : ResetDraw) : (s.resetBlock d).cur = none := rfl
@[simp] theorem State.resetBlock_sduFill (s : State) (d : ResetDraw) : (s.resetBlock d).sduFill = 0 := rfl
@[simp] theorem State.resetBlock_slots (s : State) (d : ResetDraw) : (s.resetBlock d).slots =
    drawnFile (s.cfg.maxSubpdus + 2) Slot.zero d.slots := rfl
@[simp] theorem State.resetBlock_hasBi (s : State) (d : ResetDraw) : (s.resetBlock d).hasBi = false := rfl
@[simp] theorem State.resetBlock_bi (s : State) (d : ResetDraw) : (s.resetBlock d).bi = 0 := rfl
@[simp] theorem State.resetBlock_rcount (s : State) (d : ResetDraw) : (s.resetBlock d).rcount = 0 := rfl
@[simp] theorem State.resetBlock_rslots (s : State) (d : ResetDraw) : (s.resetBlock d).rslots =
    drawnFile s.cfg.maxRarGrants RSlot.zero d.rslots := rfl
@[simp] theorem State.resetBlock_pend (s : State) (d : ResetDraw) : (s.resetBlock d).pend = false := rfl
@[simp] theorem State.resetBlock_pendWord0 (s : State) (d : ResetDraw) : (s.resetBlock d).pendWord0 = d.pendWord0 := rfl
@[simp] theorem State.resetBlock_pendLeft (s : State) (d : ResetDraw) : (s.resetBlock d).pendLeft = 0 := rfl
@[simp] theorem State.resetBlock_pendOps (s : State) (d : ResetDraw) : (s.resetBlock d).pendOps = d.pendOps := rfl
@[simp] theorem State.resetBlock_txbuf (s : State) (d : ResetDraw) : (s.resetBlock d).txbuf = drawnBuffer s.cfg d.txbuf := rfl
@[simp] theorem State.resetBlock_rxbuf (s : State) (d : ResetDraw) : (s.resetBlock d).rxbuf = drawnBuffer s.cfg d.rxbuf := rfl
@[simp] theorem State.resetBlock_sdubuf (s : State) (d : ResetDraw) : (s.resetBlock d).sdubuf = drawnBuffer s.cfg d.sdubuf := rfl
@[simp] theorem State.resetBlock_hostq (s : State) (d : ResetDraw) : (s.resetBlock d).hostq = s.hostq := rfl
@[simp] theorem State.resetBlock_source (s : State) (d : ResetDraw) : (s.resetBlock d).source = s.source := rfl
@[simp] theorem State.resetBlock_draws (s : State) (d : ResetDraw) : (s.resetBlock d).draws = s.draws := rfl

/-! ### RESULT registers -/

@[simp] theorem Results.write_nil (r : Results) : r.write [] = r := rfl

/-- A second write of at least as many results hides the first. -/
theorem Results.write_write_one (r : Results) (x y : Word) : (r.write [x]).write [y] = r.write [y] := rfl

end Sys2Proof.Machine
end

