-- ==== Sys2Proof/Laws/Memory.lean ====
section
/-! SUPPORT. The laws of the byte buffers: a byte read after a write, and that every write keeps the canonical form. -/

namespace Sys2Proof.Machine

@[simp] theorem Memory.read_nil (a : Nat) : Memory.read [] a = Memory.unwritten := rfl

@[simp] theorem Memory.read_cons (k : Nat) (b : Byte) (rest : Memory) (a : Nat) :
    Memory.read ((k, b) :: rest) a = if a = k then b else Memory.read rest a := rfl

@[simp] theorem Memory.wf_nil : Memory.wf [] = true := rfl

theorem Memory.wf_cons (k : Nat) (b : Byte) (rest : Memory) :
    Memory.wf ((k, b) :: rest) = true ↔
      b ≠ Memory.unwritten ∧ (∀ c ∈ rest, k < c.1) ∧ Memory.wf rest = true := by
  simp [Memory.wf, and_assoc]

/-- An index below every listed one is unlisted. -/
theorem Memory.read_below_all (m : Memory) (a : Nat) (h : ∀ c ∈ m, a < c.1) : m.read a = Memory.unwritten := by
  induction m with
  | nil => rfl
  | cons c rest ih =>
    obtain ⟨k, b⟩ := c
    have hk : a < k := h (k, b) (by simp)
    simp only [Memory.read_cons, if_neg (Nat.ne_of_lt hk)]
    exact ih fun c hc => h c (by simp [hc])

/-- What a write lists: entries of the old list, and the written one. -/
theorem Memory.mem_write (m : Memory) (a : Nat) (v : Byte) (c : Host.Cell) (h : c ∈ m.write a v) :
    c = (a, v) ∨ c ∈ m := by
  induction m with
  | nil => unfold Memory.write at h; split at h <;> simp_all
  | cons d rest ih =>
    obtain ⟨k, b⟩ := d
    unfold Memory.write at h
    split at h
    · split at h <;> simp_all
    · split at h
      · split at h <;> simp_all
        tauto
      · rcases List.mem_cons.mp h with h | h
        · simp [h]
        · rcases ih h with h | h <;> simp [h]

/-- A write keeps the canonical form. -/
theorem Memory.wf_write (m : Memory) (a : Nat) (v : Byte) (h : m.wf = true) : (m.write a v).wf = true := by
  induction m with
  | nil => unfold Memory.write; split <;> simp_all [Memory.wf]
  | cons d rest ih =>
    obtain ⟨k, b⟩ := d
    obtain ⟨hb, hk, hr⟩ := (Memory.wf_cons k b rest).mp h
    unfold Memory.write
    split
    · rename_i hak
      split
      · exact h
      · rename_i hv
        refine (Memory.wf_cons _ _ _).mpr ⟨hv, ?_, h⟩
        intro c hc
        rcases List.mem_cons.mp hc with rfl | hc
        · exact hak
        · exact Nat.lt_trans hak (hk c hc)
    · split
      · rename_i _ hak
        split
        · exact hr
        · rename_i hv
          exact (Memory.wf_cons _ _ _).mpr ⟨hv, fun c hc => hak ▸ hk c hc, hr⟩
      · rename_i h1 h2
        refine (Memory.wf_cons _ _ _).mpr ⟨hb, ?_, ih hr⟩
        intro c hc
        rcases Memory.mem_write rest a v c hc with rfl | hc
        · simp only; omega
        · exact hk c hc

/-- A written byte reads back. -/
theorem Memory.read_write_same (m : Memory) (a : Nat) (v : Byte) (h : m.wf = true) : (m.write a v).read a = v := by
  induction m with
  | nil => unfold Memory.write; split <;> simp_all
  | cons d rest ih =>
    obtain ⟨k, b⟩ := d
    obtain ⟨hb, hk, hr⟩ := (Memory.wf_cons k b rest).mp h
    unfold Memory.write
    split
    · rename_i hak
      split
      · rename_i hv
        rw [Memory.read_below_all _ a, hv]
        intro c hc
        rcases List.mem_cons.mp hc with rfl | hc
        · exact hak
        · exact Nat.lt_trans hak (hk c hc)
      · simp
    · split
      · rename_i _ hak
        split
        · rename_i hv
          rw [Memory.read_below_all _ a (fun c hc => hak ▸ hk c hc), hv]
        · simp
      · rename_i h1 h2
        simp [h2, ih hr]

/-- A write leaves every other byte alone. -/
theorem Memory.read_write_other (m : Memory) (a a' : Nat) (v : Byte) (h : a' ≠ a) :
    (m.write a v).read a' = m.read a' := by
  induction m with
  | nil => unfold Memory.write; split <;> simp_all
  | cons d rest ih =>
    obtain ⟨k, b⟩ := d
    unfold Memory.write
    split
    · split <;> simp [h]
    · split
      · rename_i _ hak
        split <;> simp [h, ← hak]
      · simp [ih]

/-- A write below n keeps every listed index below n. -/
theorem Memory.below_write (m : Memory) (a n : Nat) (v : Byte) (h : m.below n = true) (ha : a < n) :
    (m.write a v).below n = true := by
  simp only [Memory.below, List.all_eq_true, decide_eq_true_eq] at *
  intro c hc
  rcases Memory.mem_write m a v c hc with rfl | hc
  · exact ha
  · exact h c hc

@[simp] theorem Memory.readN_length (m : Memory) (a n : Nat) : (m.readN a n).length = n := by
  induction n generalizing a with
  | zero => rfl
  | succ n ih => simp [Memory.readN, ih]

@[simp] theorem Memory.writeN_nil (m : Memory) (a : Nat) : m.writeN a [] = m := rfl

/-- A list write keeps the canonical form. -/
theorem Memory.wf_writeN (m : Memory) (a : Nat) (bs : List Byte) (h : m.wf = true) : (m.writeN a bs).wf = true := by
  induction bs generalizing m a with
  | nil => exact h
  | cons b bs ih => exact ih _ _ (m.wf_write a b h)

/-- A list write inside the first n indexes keeps every listed index below n. -/
theorem Memory.below_writeN (m : Memory) (a n : Nat) (bs : List Byte) (h : m.below n = true)
    (ha : bs = [] ∨ a + bs.length ≤ n) : (m.writeN a bs).below n = true := by
  induction bs generalizing m a with
  | nil => exact h
  | cons b bs ih =>
    have hlen : a + (bs.length + 1) ≤ n := by simpa using ha
    exact ih _ _ (m.below_write a n b h (by omega)) (.inr (by omega))

/-- A list write leaves every byte outside it alone. -/
theorem Memory.read_writeN_other (m : Memory) (a a' : Nat) (bs : List Byte) (h : a' < a ∨ a + bs.length ≤ a') :
    (m.writeN a bs).read a' = m.read a' := by
  induction bs generalizing m a with
  | nil => rfl
  | cons b bs ih =>
    simp only [List.length_cons] at h
    rw [Memory.writeN, ih _ _ (by omega), Memory.read_write_other _ _ _ _ (by omega)]

/-- A byte inside a list write reads the list's byte. -/
theorem Memory.read_writeN_inside (m : Memory) (a j : Nat) (bs : List Byte) (h : m.wf = true) (hj : j < bs.length) :
    (m.writeN a bs).read (a + j) = bs[j] := by
  induction bs generalizing m a j with
  | nil => simp at hj
  | cons b bs ih =>
    rw [Memory.writeN]
    cases j with
    | zero => rw [Memory.read_writeN_other _ _ _ _ (.inl (by omega))]; simpa using m.read_write_same a b h
    | succ j =>
      have := ih (m.write a b) (a + 1) j (m.wf_write a b h) (by simpa using hj)
      simpa [Nat.add_assoc, Nat.add_comm 1 j] using this

/-- Reading back what was written. -/
theorem Memory.readN_writeN (m : Memory) (a : Nat) (bs : List Byte) (h : m.wf = true) :
    (m.writeN a bs).readN a bs.length = bs := by
  induction bs generalizing m a with
  | nil => rfl
  | cons b bs ih =>
    simp only [List.length_cons, Memory.readN, Memory.writeN]
    rw [ih _ _ (m.wf_write a b h), Memory.read_writeN_other _ _ _ _ (.inl (by omega)), m.read_write_same a b h]

/-- Bytes that read the same read the same as a list. -/
theorem Memory.readN_congr (m m' : Memory) (a n : Nat) (h : ∀ j, a ≤ j → j < a + n → m.read j = m'.read j) :
    m.readN a n = m'.readN a n := by
  induction n generalizing a with
  | zero => rfl
  | succ n ih =>
    rw [Memory.readN, Memory.readN, h a (Nat.le_refl a) (by omega), ih (a + 1) fun j h1 h2 => h j (by omega) (by omega)]

/-! ### Contents written out byte by byte -/

/-- What a content lists: indexes inside it. -/
theorem Memory.mem_ofBytes (a : Nat) (bs : List Byte) (c : Host.Cell) (h : c ∈ Memory.ofBytes a bs) :
    a ≤ c.1 ∧ c.1 < a + bs.length := by
  induction bs generalizing a with
  | nil => cases h
  | cons b bs ih =>
    have tail : c ∈ Memory.ofBytes (a + 1) bs → a ≤ c.1 ∧ c.1 < a + (bs.length + 1) := fun h => by
      have := ih _ h; omega
    unfold Memory.ofBytes at h
    split at h
    · exact tail h
    · rcases List.mem_cons.mp h with rfl | h
      · exact ⟨Nat.le_refl _, by simp⟩
      · exact tail h

/-- A content written out is canonical. -/
theorem Memory.wf_ofBytes (a : Nat) (bs : List Byte) : (Memory.ofBytes a bs).wf = true := by
  induction bs generalizing a with
  | nil => rfl
  | cons b bs ih =>
    unfold Memory.ofBytes
    split
    · exact ih _
    · exact (Memory.wf_cons _ _ _).mpr ⟨‹_›, fun c hc => (Memory.mem_ofBytes _ _ c hc).1, ih _⟩

/-- A content written out reads as its bytes, and as unwritten beyond them. -/
theorem Memory.read_ofBytes (a j : Nat) (bs : List Byte) :
    (Memory.ofBytes a bs).read (a + j) = bs.getD j Memory.unwritten := by
  induction bs generalizing a j with
  | nil => simp [Memory.ofBytes]
  | cons b bs ih =>
    have tail : ∀ j, (Memory.ofBytes (a + 1) bs).read (a + (j + 1)) = bs.getD j Memory.unwritten := fun j => by
      rw [← ih (a + 1) j]; congr 1; omega
    have head : (Memory.ofBytes (a + 1) bs).read a = Memory.unwritten :=
      Memory.read_below_all _ _ fun c hc => (Memory.mem_ofBytes _ _ c hc).1
    unfold Memory.ofBytes
    split
    · cases j with
      | zero => simpa [head] using (‹b = _›).symm
      | succ j => simpa using tail j
    · cases j with
      | zero => simp
      | succ j => simpa using tail j

/-- A drawn buffer is canonical and inside its size. -/
theorem drawnBuffer_bufferOk (c : Config) (drawn : List Byte) : BufferOk c (drawnBuffer c drawn) := by
  refine ⟨Memory.wf_ofBytes _ _, ?_⟩
  simp only [Memory.below, List.all_eq_true, decide_eq_true_eq]
  intro x hx
  have := (Memory.mem_ofBytes _ _ x hx).2
  simp only [List.length_take] at this
  omega

/-- A drawn buffer reads as the drawn bytes: every content of a buffer is some draw's. -/
theorem drawnBuffer_read (c : Config) (drawn : List Byte) (i : Nat) (h : i < c.maxTbBytes) :
    (drawnBuffer c drawn).read i = drawn.getD i 0 := by
  have := Memory.read_ofBytes 0 i (drawn.take c.maxTbBytes)
  rw [Nat.zero_add] at this
  rw [drawnBuffer, this]
  simp [List.getD, List.getElem?_take_of_lt h, Memory.unwritten]

end Sys2Proof.Machine
end

