-- ==== Sys2Proof/Laws/Ops.lean ====
section
/-! SUPPORT. One lemma per shared operation: everything it can answer. Proofs cite these and do not unfold the operation
again. -/

namespace Sys2Proof.Machine

/-! ### The conditions commands check, as the statements write them -/

theorem building_general (s : State) : building .general s = true ↔ GeneralBuild s := by simp [building]

theorem building_rar (s : State) : building .rar s = true ↔ RarBuild s := by simp [building]

theorem parsed_general (s : State) : parsed .general s = true ↔ GeneralParsed s := by simp [parsed]

theorem parsed_rar (s : State) : parsed .rar s = true ↔ RarParsed s := by simp [parsed]

theorem receiving_iff (ct : CType) (s : State) :
    receiving ct s = true ↔ s.ctype = ct ∧ (s.mode = .rxReady ∨ s.mode = .rxParsed) := by simp [receiving]

theorem lastSlotEmpty_iff (s : State) : lastSlotEmpty s = true ↔ LastEmpty s := by
  simp [lastSlotEmpty, Nat.pos_iff_ne_zero]

theorem lastRSlotUnpopulated_iff (s : State) : lastRSlotUnpopulated s = true ↔ LastUnpopulated s := by
  simp [lastRSlotUnpopulated, Nat.pos_iff_ne_zero]

/-! ### Ending a command -/

theorem fail_eq (c : Status) (s : State) : fail c s = .next (s.withCode c) := rfl

theorem done_eq (s : State) : done s = .next (s.withCode .ok) := rfl

theorem doneWith_eq (xs : List Word) (s : State) : doneWith xs s = .next ((s.withResults xs).withCode .ok) := rfl

/-! ### Buffer accesses -/

@[simp] theorem orFault_some {α : Type} (x : α) (k : α → Result) : orFault (some x) k = k x := rfl

@[simp] theorem orFault_none {α : Type} (k : α → Result) : orFault none k = .fault .bufferRange := rfl

/-- A buffer access that goes on had its value. -/
theorem orFault_next {α : Type} {r : Option α} {k : α → Result} {t : State} (h : orFault r k = .next t) :
    ∃ x, r = some x ∧ k x = .next t := by
  cases r with
  | none => cases h
  | some x => exact ⟨x, rfl, h⟩

theorem inBuffer_iff (c : Config) (a n : Nat) : inBuffer c a n = true ↔ n = 0 ∨ a + n ≤ c.maxTbBytes := by
  simp [inBuffer]

theorem memRead_eq (c : Config) (m : Memory) (a n : Nat) (h : n = 0 ∨ a + n ≤ c.maxTbBytes) :
    memRead c m a n = some (m.readN a n) := by
  simp [memRead, (inBuffer_iff c a n).mpr h]

theorem memWrite_eq (c : Config) (m : Memory) (a : Nat) (bs : List Byte)
    (h : bs.length = 0 ∨ a + bs.length ≤ c.maxTbBytes) : memWrite c m a bs = some (m.writeN a bs) := by
  simp [memWrite, (inBuffer_iff c a bs.length).mpr h]

theorem memRead_some {c : Config} {m : Memory} {a n : Nat} {bs : List Byte} (h : memRead c m a n = some bs) :
    bs = m.readN a n ∧ (n = 0 ∨ a + n ≤ c.maxTbBytes) := by
  unfold memRead at h
  split at h
  · rename_i hin
    exact ⟨(Option.some.inj h).symm, (inBuffer_iff c a n).mp hin⟩
  · cases h

theorem memWrite_some {c : Config} {m m' : Memory} {a : Nat} {bs : List Byte} (h : memWrite c m a bs = some m') :
    m' = m.writeN a bs ∧ (bs.length = 0 ∨ a + bs.length ≤ c.maxTbBytes) := by
  unfold memWrite at h
  split at h
  · rename_i hin
    exact ⟨(Option.some.inj h).symm, (inBuffer_iff c a bs.length).mp hin⟩
  · cases h

/-- A write inside a buffer keeps it canonical and inside its size. -/
theorem memWrite_bufferOk {c : Config} {m m' : Memory} {a : Nat} {bs : List Byte} (h : memWrite c m a bs = some m')
    (hm : BufferOk c m) : BufferOk c m' := by
  obtain ⟨rfl, hin⟩ := memWrite_some h
  exact ⟨m.wf_writeN a bs hm.1, m.below_writeN a _ bs hm.2 (hin.imp List.eq_nil_of_length_eq_zero id)⟩

/-! ### The SDU source -/

/-- A SourceRead takes the next listed answer, or draws a free one. It changes nothing else. -/
theorem sourceRead_cases (lcid : BitVec 5) (mx : Nat) (s : State) :
    (∃ a rest, s.source = a :: rest ∧ sourceRead lcid mx s = (a, { s with source := rest })) ∨
    (s.source = [] ∧
      sourceRead lcid mx s = (freeSourceAnswer s.draws lcid mx, { s with draws := s.draws + 1 })) := by
  unfold sourceRead
  cases h : s.source with
  | nil => exact .inr ⟨rfl, rfl⟩
  | cons a rest => exact .inl ⟨a, rest, rfl, rfl⟩

/-! ### Shared command shapes -/

/-- Everything an INIT command can answer. -/
theorem initCommand_cases (ct : CType) (m : Mode) (p : Bool) (n : Word) (r : Nat) (s : State) :
    (s.cfg.maxTbBytes < n.toNat ∧ initCommand ct m p n r s = .next (s.withCode .errIllegal)) ∨
    (n.toNat ≤ s.cfg.maxTbBytes ∧
      initCommand ct m p n r s = .next ((s.initContainer ct m p n.toNat r).withCode .ok)) := by
  unfold initCommand
  split
  · exact .inl ⟨‹_›, rfl⟩
  · exact .inr ⟨by omega, rfl⟩

/-- The state a reservation that succeeds leaves (42_control_elements R201). -/
theorem reserveCe_cases (row : LcidRow) (kind : Kind) (payload : List Byte) (s : State) :
    (s.remLen < row.size.getD 0 + 1 ∧ reserveCe row kind payload s = .next (s.withCode .errCapacity)) ∨
    (row.size.getD 0 + 1 ≤ s.remLen ∧
      reserveCe row kind payload s =
        .next (State.withCode
          { s.setSlot (s.count - 1)
              { slotAt s (s.count - 1) with kind := kind, lcid := row.lcid, len := row.size.getD 0,
                                            ce := CeBytes.ofList (payload.take (row.size.getD 0)) } with
            remLen := s.remLen - (row.size.getD 0 + 1) } .ok)) := by
  by_cases h : s.remLen < row.size.getD 0 + 1
  · exact .inl ⟨h, by simp only [reserveCe, if_pos h, fail]⟩
  · exact .inr ⟨by omega, by simp only [reserveCe, if_neg h, done]⟩

/-- Everything a SET_ CE command can answer: a failure that changes only STATUS, or the reservation. -/
theorem setCe_cases (kind : Kind) (payload : List Byte) (s : State) :
    (∃ c, (c = .errState ∨ c = .errDirection) ∧ setCe kind payload s = .next (s.withCode c)) ∨
    (∃ row, building .general s = true ∧ lastSlotEmpty s = true ∧ kindRow s.cfg kind = some row ∧
      setCe kind payload s = reserveCe row kind payload s) := by
  unfold setCe
  by_cases hb : building .general s = true
  · by_cases he : lastSlotEmpty s = true
    · cases hrow : kindRow s.cfg kind with
      | none     => exact .inl ⟨_, .inr rfl, by simp [hb, he, fail]⟩
      | some row => exact .inr ⟨row, hb, he, rfl, by simp [hb, he]⟩
    · exact .inl ⟨_, .inl rfl, by simp [hb, he, fail]⟩
  · exact .inl ⟨_, .inl rfl, by simp [hb, fail]⟩

/-- Everything a GET_ command's common checks can lead to. -/
theorem withEntry_cases (decodes : Kind → Bool) (s : State) (k : Slot → Result) :
    withEntry decodes s k = .next (s.withCode .errState) ∨
    (∃ c, parsed .general s = true ∧ s.cur = some c ∧ decodes (slotAt s c).kind = true ∧
      withEntry decodes s k = k (slotAt s c)) := by
  unfold withEntry
  split
  · exact .inl rfl
  · rename_i hp
    split
    · exact .inl rfl
    · rename_i c hc
      split
      · exact .inr ⟨c, by simpa using hp, hc, ‹_›, rfl⟩
      · exact .inl rfl

/-- Everything the commit of a serialized block can answer. -/
theorem commitBlock_cases (out : List Byte) (xs : List Word) (s : State) :
    (out.length ≠ s.totalLen ∧ commitBlock out xs s = .next (State.withCode { s with mode := .idle } .errSerialize)) ∨
    (out.length = s.totalLen ∧ out.length ≠ 0 ∧ s.cfg.maxTbBytes < out.length ∧
      commitBlock out xs s = .fault .bufferRange) ∨
    (out.length = s.totalLen ∧ (out.length = 0 ∨ out.length ≤ s.cfg.maxTbBytes) ∧
      commitBlock out xs s =
        .next ((State.withResults { s with txbuf := s.txbuf.writeN 0 out, mode := .txDone } xs).withCode .ok)) := by
  unfold commitBlock
  split
  · exact .inl ⟨‹_›, rfl⟩
  · rename_i hlen
    have hlen : out.length = s.totalLen := by simpa using hlen
    by_cases hin : out.length = 0 ∨ 0 + out.length ≤ s.cfg.maxTbBytes
    · refine .inr (.inr ⟨hlen, by simpa using hin, ?_⟩)
      rw [memWrite_eq _ _ _ _ hin]; rfl
    · refine .inr (.inl ⟨hlen, by omega, by omega, ?_⟩)
      have : inBuffer s.cfg 0 out.length = false := by
        simpa using mt (inBuffer_iff s.cfg 0 out.length).mp hin
      simp [memWrite, this]

/-! ### The step -/

theorem step_idle (s : State) (h : s.hostq = []) : step s = .next s := by
  simp [step, hostStep, h]

/-- A step is the host's oldest access. -/
theorem step_access (s : State) (a : HostAccess) (rest : List HostAccess) (h : s.hostq = a :: rest) :
    step s = hostAccess a { s with hostq := rest } := by
  simp [step, hostStep, h]

/-- A command's words either run as the command they decode to or only set ERR_ILLEGAL. -/
theorem runCommand_cases (words : List Word) (s : State) :
    (∃ i, decode words = .ok i ∧ runCommand words s = exec i s) ∨
    (∃ why, decode words = .illegal why ∧ runCommand words s = .next (s.withCode .errIllegal)) := by
  unfold runCommand
  cases h : decode words with
  | ok i => exact .inl ⟨i, rfl, rfl⟩
  | illegal why => exact .inr ⟨why, rfl, rfl⟩

/-! ### The invariant as a check -/

/-- The invariant and its check say the same. -/
theorem runInv_iff_check (s : State) : RunInv s ↔ runInvCheck s = true := by
  unfold RunInv runInvCheck
  simp only [Bool.and_eq_true, decide_eq_true_eq, and_assoc]

/-- Whatever a reset leaves in the buffers is canonical. -/
theorem resetOf_buffersOk (c : Config) (d : ResetDraw) : BuffersOk (State.resetOf c d) :=
  ⟨drawnBuffer_bufferOk c _, drawnBuffer_bufferOk c _, drawnBuffer_bufferOk c _⟩

/-- The reset state's memory is canonical. -/
theorem reset_buffersOk : BuffersOk State.reset := resetOf_buffersOk _ _

/-! ### Host reads of TXBUF -/

/-- Outside TX_BUILD a host read inside TXBUF gives the byte it holds (20_memory R72, R82). -/
theorem hostReadTx_eq (s : State) (i : Nat) (h : i < s.cfg.maxTbBytes) (hm : s.mode ≠ .txBuild) :
    hostReadTx s i = some (s.txbuf.read i) := by simp [hostReadTx, h, hm]

end Sys2Proof.Machine
end

