-- ==== Sys2Proof/Laws/PerInstr.lean ====
section
/-! SUPPORT. Statements made per command, one lemma per constructor of Instr. -/

/-- A command's encoding has one word and the operand words its opcode takes (30_encoding R95). -/
def Sys2Proof.Laws.EncodedLength.Statement (i : Sys2Proof.Instr) : Prop :=
  ∃ w0 ops, Sys2Proof.encode i = w0 :: ops ∧ ops.length = Sys2Proof.operandWords w0

namespace Sys2Proof.Laws.EncodedLength

/-- The opcode of a word 0 written from its fields (30_encoding R90). -/
theorem opcField_cmdWord (opc a : BitVec 8) (b : BitVec 16) : opcField (cmdWord opc a b) = opc := by
  apply BitVec.eq_of_getLsbD_eq
  intro i hi
  simp only [opcField, cmdWord, BitVec.getLsbD_extractLsb', BitVec.getLsbD_append]
  have h1 : ¬ (24 + i < 16) := by omega
  have h2 : ¬ (24 + i - 16 < 8) := by omega
  have h3 : 24 + i - 16 - 8 = i := by omega
  simp [hi, h1, h2, h3]

/-- The operand-word count of a word 0 made of an opcode and fields depends on the opcode alone. -/
theorem operandWords_cmdWord (opc a : BitVec 8) (b : BitVec 16) :
    operandWords (cmdWord opc a b) = match opRow opc with
      | some r => r.nw
      | none => 0 :=
  congrArg (fun o => match opRow o with
    | some r => r.nw
    | none => 0) (opcField_cmdWord opc a b)

theorem initTx (pad : Bool) (total : Word) : Statement (.initTx pad total) :=
  ⟨_, _, rfl, (operandWords_cmdWord _ _ _).symm ▸ rfl⟩

theorem initRx (total : Word) : Statement (.initRx total) :=
  ⟨_, _, rfl, (operandWords_cmdWord _ _ _).symm ▸ rfl⟩

theorem append : Statement .append :=
  ⟨_, _, rfl, (operandWords_cmdWord _ _ _).symm ▸ rfl⟩

theorem removeLast : Statement .removeLast :=
  ⟨_, _, rfl, (operandWords_cmdWord _ _ _).symm ▸ rfl⟩

theorem serialize : Statement .serialize :=
  ⟨_, _, rfl, (operandWords_cmdWord _ _ _).symm ▸ rfl⟩

theorem parse : Statement .parse :=
  ⟨_, _, rfl, (operandWords_cmdWord _ _ _).symm ▸ rfl⟩

theorem iterNext : Statement .iterNext :=
  ⟨_, _, rfl, (operandWords_cmdWord _ _ _).symm ▸ rfl⟩

theorem setSdu (lcid : BitVec 5) (req : Word) : Statement (.setSdu lcid req) :=
  ⟨_, _, rfl, (operandWords_cmdWord _ _ _).symm ▸ rfl⟩

theorem setBsr (fmt : BitVec 2) (o0 o1 o2 o3 : Word) : Statement (.setBsr fmt o0 o1 o2 o3) :=
  ⟨_, _, rfl, (operandWords_cmdWord _ _ _).symm ▸ rfl⟩

theorem setPhr (db : BitVec 16) : Statement (.setPhr db) :=
  ⟨_, _, rfl, (operandWords_cmdWord _ _ _).symm ▸ rfl⟩

theorem setTa (ta : BitVec 6) : Statement (.setTa ta) :=
  ⟨_, _, rfl, (operandWords_cmdWord _ _ _).symm ▸ rfl⟩

theorem setCrid (crid : BitVec 48) : Statement (.setCrid crid) :=
  ⟨_, _, rfl, (operandWords_cmdWord _ _ _).symm ▸ rfl⟩

theorem setCrnti (rnti : BitVec 16) : Statement (.setCrnti rnti) :=
  ⟨_, _, rfl, (operandWords_cmdWord _ _ _).symm ▸ rfl⟩

theorem setScell (bitmap : Word) : Statement (.setScell bitmap) :=
  ⟨_, _, rfl, (operandWords_cmdWord _ _ _).symm ▸ rfl⟩

theorem getSdu : Statement .getSdu :=
  ⟨_, _, rfl, (operandWords_cmdWord _ _ _).symm ▸ rfl⟩

theorem getBsr : Statement .getBsr :=
  ⟨_, _, rfl, (operandWords_cmdWord _ _ _).symm ▸ rfl⟩

theorem getPhr : Statement .getPhr :=
  ⟨_, _, rfl, (operandWords_cmdWord _ _ _).symm ▸ rfl⟩

theorem getTa : Statement .getTa :=
  ⟨_, _, rfl, (operandWords_cmdWord _ _ _).symm ▸ rfl⟩

theorem getCrid : Statement .getCrid :=
  ⟨_, _, rfl, (operandWords_cmdWord _ _ _).symm ▸ rfl⟩

theorem getCrnti : Statement .getCrnti :=
  ⟨_, _, rfl, (operandWords_cmdWord _ _ _).symm ▸ rfl⟩

theorem getScell : Statement .getScell :=
  ⟨_, _, rfl, (operandWords_cmdWord _ _ _).symm ▸ rfl⟩

theorem getMchSched (k : BitVec 16) : Statement (.getMchSched k) :=
  ⟨_, _, rfl, (operandWords_cmdWord _ _ _).symm ▸ rfl⟩

theorem rarInitTx (total : Word) : Statement (.rarInitTx total) :=
  ⟨_, _, rfl, (operandWords_cmdWord _ _ _).symm ▸ rfl⟩

theorem rarInitRx (total : Word) : Statement (.rarInitRx total) :=
  ⟨_, _, rfl, (operandWords_cmdWord _ _ _).symm ▸ rfl⟩

theorem rarAppend : Statement .rarAppend :=
  ⟨_, _, rfl, (operandWords_cmdWord _ _ _).symm ▸ rfl⟩

theorem rarRemoveLast : Statement .rarRemoveLast :=
  ⟨_, _, rfl, (operandWords_cmdWord _ _ _).symm ▸ rfl⟩

theorem rarSetBackoff (bi : BitVec 4) : Statement (.rarSetBackoff bi) :=
  ⟨_, _, rfl, (operandWords_cmdWord _ _ _).symm ▸ rfl⟩

theorem rarSetGrant (rapid : BitVec 6) (ta : BitVec 11) (grant : BitVec 20) (tc : BitVec 16) : Statement (.rarSetGrant rapid ta grant tc) :=
  ⟨_, _, rfl, (operandWords_cmdWord _ _ _).symm ▸ rfl⟩

theorem rarSerialize : Statement .rarSerialize :=
  ⟨_, _, rfl, (operandWords_cmdWord _ _ _).symm ▸ rfl⟩

theorem rarParse : Statement .rarParse :=
  ⟨_, _, rfl, (operandWords_cmdWord _ _ _).symm ▸ rfl⟩

theorem rarIterNext : Statement .rarIterNext :=
  ⟨_, _, rfl, (operandWords_cmdWord _ _ _).symm ▸ rfl⟩

theorem rarGetGrant : Statement .rarGetGrant :=
  ⟨_, _, rfl, (operandWords_cmdWord _ _ _).symm ▸ rfl⟩

theorem rarGetBackoff : Statement .rarGetBackoff :=
  ⟨_, _, rfl, (operandWords_cmdWord _ _ _).symm ▸ rfl⟩

end Sys2Proof.Laws.EncodedLength
end

