-- ==== Sys2Proof/Tests/Slice0.lean ====
section
/-! SUPPORT. The model's own tests. Expected results are from the spec's vectors (95_test_vectors, section named with each
test) or worked by hand from a rule. A name wit_<statement> shows states and operands that meet that statement's
hypotheses. -/

namespace Sys2Proof.Tests

open Sys2Proof Sys2Proof.Machine

/-! ### Well-formedness -/

theorem test_wf_setBsr_fmt3_refused : ¬ WellFormed (.setBsr 3 0 0 0 0) := by decide

theorem test_wf_setBsr_formats : WellFormed (.setBsr 0 0 0 0 0) ∧ WellFormed (.setBsr 1 0 0 0 0) ∧
    WellFormed (.setBsr 2 0 0 0 0) := by decide

theorem test_wf_encoded_fmt3_does_not_decode : decode (encode (.setBsr 3 0 0 0 0)) = .illegal .bsrFormat := by decide

/-! ### Decoding (95_test_vectors B3) -/

theorem test_decode_container :
    decode [0x01000000, 0x00000019] = .ok (.initTx false 25) ∧ decode [0x01010000, 0x00000019] = .ok (.initTx true 25) ∧
    decode [0x02000000, 0x00000019] = .ok (.initRx 25) ∧ decode [0x03000000] = .ok .append ∧
    decode [0x04000000] = .ok .removeLast ∧ decode [0x05000000] = .ok .serialize ∧ decode [0x06000000] = .ok .parse ∧
    decode [0x07000000] = .ok .iterNext := by decide

theorem test_decode_set :
    decode [0x10010000, 0x00000008] = .ok (.setSdu 1 8) ∧
    decode [0x11010000, 0x00000610, 0x00000610, 0x00000610, 0x00000610] = .ok (.setBsr 1 1552 1552 1552 1552) ∧
    decode [0x11000000, 0, 0, 0x00000610, 0] = .ok (.setBsr 0 0 0 1552 0) ∧
    decode [0x1200FFFF] = .ok (.setPhr (BitVec.ofInt 16 (-1))) ∧ decode [0x131F0000] = .ok (.setTa 31) ∧
    decode [0x14000102, 0x03040506] = .ok (.setCrid 0x010203040506) ∧ decode [0x15004601] = .ok (.setCrnti 0x4601) ∧
    decode [0x16000000, 0x00000006] = .ok (.setScell 6) := by decide

theorem test_decode_get :
    decode [0x20000000] = .ok .getSdu ∧ decode [0x21000000] = .ok .getBsr ∧ decode [0x22000000] = .ok .getPhr ∧
    decode [0x23000000] = .ok .getTa ∧ decode [0x24000000] = .ok .getCrid ∧ decode [0x25000000] = .ok .getCrnti ∧
    decode [0x26000000] = .ok .getScell ∧ decode [0x27000001] = .ok (.getMchSched 1) := by decide

theorem test_decode_rar :
    decode [0x30000000, 0x00000007] = .ok (.rarInitTx 7) ∧ decode [0x31000000, 0x00000007] = .ok (.rarInitRx 7) ∧
    decode [0x32000000] = .ok .rarAppend ∧ decode [0x33000000] = .ok .rarRemoveLast ∧
    decode [0x34050000] = .ok (.rarSetBackoff 5) ∧
    decode [0x352A1001, 0x00000008, 0x0000000C] = .ok (.rarSetGrant 42 8 12 0x1001) ∧
    decode [0x36000000] = .ok .rarSerialize ∧ decode [0x37000000] = .ok .rarParse ∧
    decode [0x38000000] = .ok .rarIterNext ∧ decode [0x39000000] = .ok .rarGetGrant ∧
    decode [0x3A000000] = .ok .rarGetBackoff := by decide

/-- Bit by bit: OPC 00010000, A = 000 11111, B = 0, W1 the operand; and RAR_SET_GRANT with every operand bit set. -/
theorem test_decode_bits :
    decode [0b00010000000111110000000000000000, 0xFFFFFFFF] = .ok (.setSdu 31 0xFFFFFFFF) ∧
    decode [0b00110101001111111111111111111111, 0b00000000000000000000011111111111,
      0b00000000000011111111111111111111] = .ok (.rarSetGrant 0x3F 0x7FF 0xFFFFF 0xFFFF) := by decide

/-- The illegal encodings of B3. -/
theorem test_decode_illegal :
    decode [0x00000000] = .illegal .unassignedOpcode ∧ decode [0xFF000000] = .illegal .unassignedOpcode ∧
    decode [0x03000001] = .illegal .reservedBit ∧ decode [0x11030000, 0, 0, 0, 0] = .illegal .bsrFormat ∧
    decode [0x13400000] = .illegal .reservedBit ∧ decode [0x10200000, 8] = .illegal .reservedBit ∧
    decode [0x352A1001, 0x00000800, 0x0000000C] = .illegal .reservedBit ∧
    decode [0x352A1001, 0x00000008, 0x00100000] = .illegal .reservedBit ∧
    decode [0x34100000] = .illegal .reservedBit := by decide

/-- The table numbers word 0 in bits 31..0 and W1 in bits 63..32; operand words beyond nbits are 0. -/
theorem test_decodeTableWord :
    decodeTableWord 64 0x0000000810010000 = some (.setSdu 1 8) ∧ decodeTableWord 32 0x10010000 = some (.setSdu 1 0) ∧
    decodeTableWord 32 0x08000000 = none := by decide

/-! ### Small states -/

def ulCfg : Config := { defaultConfig with dir := .ul }
def mchCfg : Config := { defaultConfig with dir := .mch }

/-- The state after reset with the draw that names nothing. -/
def freshOf (c : Config) : State := State.resetOf c ResetDraw.zero

/-- A general build with these slots. -/
def buildState (c : Config) (total rem : Nat) (slots : List Slot) (last : Option Nat) (fill : Nat) : State :=
  { freshOf c with
    mode := .txBuild, totalLen := total, remLen := rem, count := slots.length, lastSdu := last, sduFill := fill,
    slots := slots ++ List.replicate (c.maxSubpdus + 2 - slots.length) Slot.zero }

/-- An EMPTY slot claimed when these were REM_LEN, LAST_SDU and SDU_FILL. -/
def emptySlot (rem : Nat) (last : Option Nat) (fill : Nat) : Slot :=
  { Slot.zero with remBefore := rem, lastBefore := last, fillBefore := fill }

/-- A populated slot. -/
def slotOf (kind : Kind) (lcid : BitVec 5) (len off : Nat) (ce : List Byte) (rem : Nat) (last : Option Nat)
    (fill : Nat) : Slot :=
  { kind := kind, lcid := lcid, len := len, off := off, ce := CeBytes.ofList ce, remBefore := rem, lastBefore := last,
    fillBefore := fill }

/-- A receive container, RX_READY, with these bytes in RXBUF. -/
def rxState (c : Config) (ct : CType) (bytes : List Byte) : State :=
  { freshOf c with
    mode := .rxReady, ctype := ct, totalLen := bytes.length, rxbuf := Memory.writeN [] 0 bytes }

/-- A parsed general container with one entry, which CUR names. -/
def entryState (c : Config) (bytes : List Byte) (x : Slot) : State :=
  { rxState c .general bytes with
    mode := .rxParsed, count := 1, iter := 1, cur := some 0,
    slots := x :: List.replicate (c.maxSubpdus + 1) Slot.zero }

/-- A RAR build with these slots. -/
def rarState (total rem : Nat) (bi : Option (BitVec 4)) (gs : List RSlot) : State :=
  { freshOf defaultConfig with
    mode := .txBuild, ctype := .rar, totalLen := total, remLen := rem, hasBi := bi.isSome, bi := bi.getD 0,
    rcount := gs.length, rslots := gs ++ List.replicate (4 - gs.length) RSlot.zero }

/-- What one command leaves; the state itself where it stops. -/
def after (i : Instr) (s : State) : State :=
  match exec i s with
  | .next t => t
  | .fault _ | .refused _ => s

/-- Scenario 1 before its second SET_SDU's APPEND: one SDU of 8 bytes on LCID 1, TOTAL_LEN 25. -/
def oneSdu : State :=
  { buildState defaultConfig 25 16 [slotOf .sdu 1 8 0 [] 25 none 0] (some 0) 8 with
    sdubuf := Memory.writeN [] 0 (List.replicate 8 1) }

/-- The same with a second slot EMPTY, and the source about to answer 8 bytes. -/
def secondEmpty : State :=
  { buildState defaultConfig 25 16 [slotOf .sdu 1 8 0 [] 25 none 0, emptySlot 16 (some 0) 8] (some 0) 8 with
    sdubuf := Memory.writeN [] 0 (List.replicate 8 1), source := [⟨some (List.replicate 8 2), []⟩] }

/-- Scenario 1 before SERIALIZE. -/
def twoSdus : State :=
  { buildState defaultConfig 25 6 [slotOf .sdu 1 8 0 [] 25 none 0, slotOf .sdu 2 8 8 [] 16 (some 0) 8] (some 1) 16 with
    sdubuf := Memory.writeN [] 0 (List.replicate 8 1 ++ List.replicate 8 2) }

/-- One EMPTY slot in a block of `total` bytes. -/
def firstEmpty (c : Config) (total : Nat) : State := buildState c total total [emptySlot total none 0] none 0

/-- One grant, Scenario 4's. -/
def grant42 : RSlot := ⟨true, 42, 8, 12, 0x1001⟩

/-! ### Transmit (95_test_vectors B4, B5, B6) -/

theorem test_initTx : (after (.initTx false 25) State.reset).mode = .txBuild ∧
    (after (.initTx false 25) State.reset).remLen = 25 ∧ (after (.initTx false 2000) State.reset).code = .errIllegal := by
  decide

theorem test_append : (after .append oneSdu).results.r0 = 1 ∧ (after .append oneSdu).count = 2 ∧
    (after .append secondEmpty).code = .errState := by decide

theorem test_removeLast : (after .removeLast oneSdu).remLen = 25 ∧ (after .removeLast oneSdu).lastSdu = none ∧
    (after .removeLast oneSdu).sduFill = 0 := by decide

/-- R169: REM = 16 - (8 + 1 + 1) = 6. -/
theorem test_setSdu : (after (.setSdu 2 8) secondEmpty).remLen = 6 ∧
    (after (.setSdu 2 8) secondEmpty).lastSdu = some 1 ∧ (after (.setSdu 2 8) secondEmpty).results.r0 = 8 ∧
    (after (.setSdu 2 8) secondEmpty).sdubuf.read 8 = 2 := by decide

theorem test_setSdu_overlong_answer : (after (.setSdu 2 7) secondEmpty).code = .errSource ∧
    (after (.setSdu 2 7) secondEmpty).remLen = 16 := by decide

/-- Scenario 1. -/
theorem test_serialize : (after .serialize twoSdus).txbuf.readN 0 6 = [0x21, 0x08, 0x22, 0x08, 0x1f, 0x01] ∧
    (after .serialize twoSdus).txbuf.readN 12 10 = [1, 2, 2, 2, 2, 2, 2, 2, 2, 0] ∧
    (after .serialize twoSdus).results.r1 = 5 ∧ (after .serialize twoSdus).results.r3 = 4 := by decide

/-- B6.3 and B6.4: nothing appended. -/
theorem test_serialize_only_padding :
    (after .serialize (buildState defaultConfig 2 2 [] none 0)).txbuf.readN 0 2 = [0x3f, 0x1f] ∧
    (after .serialize (buildState defaultConfig 3 3 [] none 0)).txbuf.readN 0 3 = [0x1f, 0, 0] := by decide

/-- B5: LONG of (0, 10, 1552, 200000) is 00 18 7f; SHORT of (5, 0, 0, 7) is c1. -/
theorem test_setBsr :
    (slotAt (after (.setBsr 1 0 10 1552 200000) (firstEmpty ulCfg 4)) 0).ce = ⟨0x00, 0x18, 0x7f, 0, 0, 0⟩ ∧
    (slotAt (after (.setBsr 0 5 0 0 7) (firstEmpty ulCfg 2)) 0).ce.c0 = 0xc1 ∧
    (after (.setBsr 0 0 0 0 0) (firstEmpty defaultConfig 9)).code = .errDirection := by decide

theorem test_setPhr : (slotAt (after (.setPhr 17) (firstEmpty ulCfg 2)) 0).ce.c0 = 0x28 ∧
    (slotAt (after (.setPhr 0x8000) (firstEmpty ulCfg 2)) 0).ce.c0 = 0 ∧
    (after (.setPhr 0) (firstEmpty ulCfg 1)).code = .errCapacity := by decide

theorem test_setTa : (slotAt (after (.setTa 31) (firstEmpty defaultConfig 2)) 0).ce.c0 = 0x1f ∧
    (slotAt (after (.setTa 31) (firstEmpty defaultConfig 2)) 0).lcid = 29 ∧
    (after (.setTa 5) (firstEmpty ulCfg 9)).code = .errDirection := by decide

theorem test_setCrid :
    (slotAt (after (.setCrid 0x010203040506) (firstEmpty defaultConfig 7)) 0).ce = ⟨1, 2, 3, 4, 5, 6⟩ ∧
    (after (.setCrid 1) (firstEmpty defaultConfig 6)).code = .errCapacity := by decide

theorem test_setCrnti : (slotAt (after (.setCrnti 0x4601) (firstEmpty ulCfg 3)) 0).ce = ⟨0x46, 0x01, 0, 0, 0, 0⟩ ∧
    (after (.setCrnti 0x4601) (firstEmpty ulCfg 3)).remLen = 0 := by decide

theorem test_setScell : (slotAt (after (.setScell 7) (firstEmpty defaultConfig 2)) 0).ce.c0 = 6 ∧
    (slotAt (after (.setScell 0x80000003) (firstEmpty defaultConfig 5)) 0).ce = ⟨0x80, 0, 0, 0x02, 0, 0⟩ ∧
    (after (.setScell 0x100) (firstEmpty defaultConfig 4)).code = .errCapacity := by decide

/-! ### Receive (95_test_vectors B7, B8) -/

theorem test_initRx : (after (.initRx 25) State.reset).mode = .rxReady ∧ (after (.initRx 25) State.reset).totalLen = 25 := by
  decide

/-- Scenario 3, UL: LONG_BSR at 2, padding at 5. -/
theorem test_parse :
    let t := after .parse (rxState ulCfg .general [0x3e, 0x1f, 0x86, 0x18, 0x61, 0, 0, 0])
    t.count = 2 ∧ t.results.r1 = 2 ∧ (slotAt t 0).ce = ⟨0x86, 0x18, 0x61, 0, 0, 0⟩ ∧ (slotAt t 1).off = 5 ∧
      (slotAt t 1).len = 3 := by decide

theorem test_parse_corrupt :
    let t := after .parse (rxState defaultConfig .general [0x21, 0x20, 0x01, 0x02])
    t.code = .errCorrupt ∧ t.corrupt = true ∧ t.count = 0 ∧ readRegister t 4 = 0x00000102 := by decide

/-- An entry (PADDING, 31, 21, 4), as Scenario 1's third. -/
def paddingEntry : State :=
  { entryState defaultConfig (List.replicate 25 0) (slotOf .padding 31 4 21 [] 0 none 0) with iter := 0, cur := none }

theorem test_iterNext : (after .iterNext paddingEntry).results.r0 = 2 ∧ (after .iterNext paddingEntry).results.r1 = 31 ∧
    (after .iterNext paddingEntry).results.r2 = 21 ∧ (after .iterNext paddingEntry).cur = some 0 ∧
    (after .iterNext (after .iterNext paddingEntry)).code = .iterEnd := by decide

theorem test_getSdu :
    let t := after .getSdu (entryState defaultConfig (List.replicate 25 0) (slotOf .sdu 1 8 5 [] 0 none 0))
    t.results.r0 = 5 ∧ t.results.r1 = 8 ∧ t.results.r2 = 1 := by decide

/-- B8: 00 18 7f and the Short a1. -/
theorem test_getBsr :
    let t := after .getBsr (entryState ulCfg [0x1e, 0, 0x18, 0x7f] (slotOf .longBsr 30 3 1 [0, 0x18, 0x7f] 0 none 0))
    let u := after .getBsr (entryState ulCfg [0x1d, 0xa1] (slotOf .shortBsr 29 1 1 [0xa1] 0 none 0))
    t.results = ⟨0, 10, 1552, 150000, 3, 0, 1, 33, 63⟩ ∧ u.results = ⟨0, 0, 1552, 0, 2, 0, 0, 33, 0⟩ := by decide

theorem test_getPhr :
    let t := after .getPhr (entryState ulCfg [0x1a, 0xc0] (slotOf .phr 26 1 1 [0xc0] 0 none 0))
    t.results.r0 = 0xFFFFFFE9 ∧ t.results.r1 = 0 := by decide

theorem test_getTa :
    let t := after .getTa (entryState defaultConfig [0x1d, 0x5f] (slotOf .ta 29 1 1 [0x5f] 0 none 0))
    t.results.r0 = 31 ∧ t.results.r1 = 1 := by decide

theorem test_getCrid :
    let t := after .getCrid (entryState defaultConfig (List.replicate 7 0) (slotOf .crid 28 6 1 [1, 2, 3, 4, 5, 6] 0 none 0))
    t.results.r0 = 0x0102 ∧ t.results.r1 = 0x03040506 := by decide

theorem test_getCrnti :
    (after .getCrnti (entryState ulCfg [0x1b, 0x46, 1] (slotOf .crnti 27 2 1 [0x46, 0x01] 0 none 0))).results.r0 =
      0x4601 := by decide

theorem test_getScell :
    let t := after .getScell (entryState defaultConfig [0x1b, 7] (slotOf .scell1 27 1 1 [7] 0 none 0))
    let u := after .getScell (entryState defaultConfig [0x18, 0, 0, 1, 3] (slotOf .scell4 24 4 1 [0, 0, 1, 3] 0 none 0))
    t.results.r0 = 6 ∧ t.results.r1 = 1 ∧ u.results.r0 = 0x102 ∧ u.results.r1 = 4 := by decide

/-- The MCH block of B7, whose first entry is MCH_SCHED with two entries at 3. -/
def mchEntry : State :=
  entryState mchCfg [0x3e, 0x04, 0x1f, 0x08, 0x05, 0x10, 0x0a, 0x00] (slotOf .mchSched 30 4 3 [] 0 none 0)

theorem test_getMchSched :
    let t := after (.getMchSched 1) mchEntry
    t.results.r0 = 0x100A ∧ t.results.r1 = 2 ∧ t.results.r2 = 10 ∧ t.results.r3 = 2 ∧
      (after (.getMchSched 2) mchEntry).code = .errIllegal := by decide

/-! ### RAR (95_test_vectors B9) -/

theorem test_rarInit : (after (.rarInitTx 7) State.reset).ctype = .rar ∧ (after (.rarInitTx 7) State.reset).remLen = 7 ∧
    (after (.rarInitRx 7) State.reset).mode = .rxReady ∧ (after (.rarInitRx 7) State.reset).ctype = .rar := by decide

theorem test_rarAppend : (after .rarAppend (rarState 7 7 none [])).rcount = 1 ∧
    (after .rarAppend (rarState 7 7 none [RSlot.zero])).code = .errState ∧
    (after .rarAppend (rarState 30 2 none [grant42, grant42, grant42, grant42])).code = .errCapacity := by decide

theorem test_rarRemoveLast : (after .rarRemoveLast (rarState 7 0 none [grant42])).remLen = 7 ∧
    (after .rarRemoveLast (rarState 7 7 none [RSlot.zero])).remLen = 7 := by decide

theorem test_rarSetBackoff : (after (.rarSetBackoff 5) (rarState 3 3 none [])).remLen = 2 ∧
    (after (.rarSetBackoff 6) (rarState 3 2 (some 5) [])).remLen = 2 ∧
    (after (.rarSetBackoff 1) (rarState 0 0 none [])).code = .errCapacity := by decide

theorem test_rarSetGrant : rslotAt (after (.rarSetGrant 42 8 12 0x1001) (rarState 7 7 none [RSlot.zero])) 0 = grant42 ∧
    (after (.rarSetGrant 42 8 12 0x1001) (rarState 6 6 none [RSlot.zero])).code = .errCapacity := by decide

/-- Scenario 4; and a backoff indicator with one grant of RAPID 1, TC 1. -/
theorem test_rarSerialize :
    (after .rarSerialize (rarState 7 0 none [grant42])).txbuf.readN 0 7 = [0x6a, 0, 0x80, 0, 0x0c, 0x10, 0x01] ∧
    (after .rarSerialize (rarState 10 2 (some 5) [⟨true, 1, 0, 0, 1⟩])).txbuf.readN 0 10 =
      [0x85, 0x41, 0, 0, 0, 0, 0, 1, 0, 0] := by decide

theorem test_rarParse :
    let t := after .rarParse (rxState defaultConfig .rar [0x6a, 0, 0x80, 0, 0x0c, 0x10, 0x01])
    rslotAt t 0 = grant42 ∧ t.results.r0 = 1 ∧ t.results.r1 = 0 ∧
      (after .rarParse (rxState defaultConfig .rar [0xc1, 0x05])).code = .errCorrupt := by decide

/-- A parsed RAR container with BI 5 and one grant (1, 0, 0, 1), ITER at `iter`. -/
def rarParsed (iter : Nat) (cur : Option Nat) : State :=
  { rarState 10 0 (some 5) [⟨true, 1, 0, 0, 1⟩] with mode := .rxParsed, iter := iter, cur := cur }

theorem test_rarIterNext : (after .rarIterNext (rarParsed 0 none)).results.r0 = 16 ∧
    (after .rarIterNext (rarParsed 0 none)).results.r1 = 5 ∧ (after .rarIterNext (rarParsed 1 (some 0))).results.r0 = 17 ∧
    (after .rarIterNext (rarParsed 1 (some 0))).results.r2 = 1 ∧
    (after .rarIterNext (rarParsed 2 (some 1))).code = .iterEnd := by decide

theorem test_rarGetGrant : (after .rarGetGrant (rarParsed 1 (some 0))).code = .errState ∧
    (after .rarGetGrant (rarParsed 2 (some 1))).results.r3 = 1 := by decide

theorem test_rarGetBackoff : (after .rarGetBackoff (rarParsed 0 none)).results.r0 = 1 ∧
    (after .rarGetBackoff (rarParsed 0 none)).results.r1 = 5 ∧ (after .rarGetBackoff State.reset).code = .errState := by
  decide

/-! ### The port and reset (95_test_vectors B3, B10) -/

/-- Writing word 0 of INIT_TX leaves one word due; writing 0x19 then executes INIT_TX 25. -/
theorem test_commandAssembly :
    let s := { State.reset with hostq := [.writeReg 0 0x01000000, .writeReg 0 0x19] }
    ∃ t u, step s = .next t ∧ t.pend = true ∧ t.pendLeft = 1 ∧ step t = .next u ∧ u.mode = .txBuild ∧
      u.totalLen = 25 ∧ u.pend = false := ⟨_, _, rfl, rfl, rfl, rfl, rfl, rfl, rfl⟩

theorem test_reset_registers :
    let s := freshOf ulCfg
    readRegister s 0x08 = 0x40 ∧ readRegister s 0x1C = 0xFFFFFFFF ∧ readRegister s 0x84 = 1024 ∧
      readRegister s 0x28 = 0 ∧ readRegister s 0x8C = 150000 := by decide

/-- A draw with one byte of TXBUF, one slot and PEND_WORD0: what the reset table leaves unspecified is as drawn, the rest as
the table says (70_reset_and_hazards R330). -/
def someDraw : ResetDraw :=
  { ResetDraw.zero with txbuf := [0, 7], slots := [slotOf .sdu 1 8 0 [] 25 none 0], pendWord0 := 0x352A1001 }

theorem test_reset_draw :
    ∃ t, hostAccess (.reset someDraw) twoSdus = .next t ∧ hostReadTx t 1 = some 7 ∧ hostReadTx t 2 = some 0 ∧
      (slotAt t 0).kind = .sdu ∧ t.pendWord0 = 0x352A1001 ∧ t.pend = false ∧ t.count = 0 ∧ t.mode = .idle :=
  ⟨_, rfl, by decide, by decide, by decide, by decide, by decide, by decide, by decide⟩

/-- COUNT <- n (43_container_rx R247), for the most entries a block can have, with MAX_SUBPDUS = 255 (92 D5). -/
theorem test_parse_count_largest (w : Walk) (hw : w.entries.length = 257) :
    ∃ t, parseCommit [] w (rxState defaultConfig .general []) = .next t ∧ t.count = 257 ∧ readRegister t 0x0C = 257 ∧
      t.results.r0 = 257 := by
  refine ⟨_, rfl, hw, ?_, by simp [Results.write, word, hw]⟩
  change word w.entries.length = 257
  rw [hw]; rfl

/-! ### Witnesses: the hypotheses of the statements can be met -/

/-- A state of a run, by evaluating the invariant's check. -/
theorem runInv_of_check (s : State) (h : runInvCheck s = true) : RunInv s := (runInv_iff_check s).mpr h

theorem wit_DecodeEncodeRoundTrip : WellFormed (.rarSetGrant 0x3F 0x7FF 0xFFFFF 0xFFFF) := by decide

theorem wit_LegalWordsHaveOneCommand : decode [0x10010000, 0x00000008] = .ok (.setSdu 1 8) := by decide

theorem wit_IllegalCommandsOnlySetStatus :
    ((⟨0x35, .rarSetGrant, 2, [0x00C00000, 0xFFFFF800, 0xFFF00000]⟩ : OpRow) ∈ opTable ∧
      opcField 0x352A1001 = 0x35 ∧ reservedBitSet [0x00C00000, 0xFFFFF800, 0xFFF00000] [0x352A1001, 8, 0x00100000] = true) ∧
    (opcField 0x11030000 = 0x11 ∧ (0x11030000 : Word).extractLsb' 16 2 = 3) ∧
    ((⟨0x03, .append, 0, [0x00FFFFFF]⟩ : OpRow) ∈ opTable ∧ opcField 0x03000001 = 0x03 ∧
      ∀ i, WellFormed i → encode i ≠ [0x03000001]) := by
  refine ⟨by decide, by decide, by decide, by decide, fun i _ h => ?_⟩
  have hopc : (encode i).head?.map opcField = some 0x03 := by rw [h]; decide
  cases i <;> simp [encode, Laws.EncodedLength.opcField_cmdWord] at hopc
  revert h; decide

theorem wit_UnassignedOpcodeRunsAtOnce :
    opcField 0x00000000 ∉ assignedOpcodes ∧ opcField 0x08FFFFFF ∉ assignedOpcodes ∧
    opcField 0x3B000000 ∉ assignedOpcodes ∧ State.reset.pend = false := by decide

/-- RAR_SET_GRANT with `left` operand words due. -/
def pendingGrant (left : Nat) : State :=
  { State.reset with pend := true, pendWord0 := 0x352A1001, pendLeft := left, pendOps := ⟨8, 0, 0, 0⟩ }

theorem wit_CommandAssembly :
    (State.reset.pend = false ∧ operandWords 0x03000000 = 0) ∧
    (State.reset.pend = false ∧ operandWords 0x11000000 ≠ 0) ∧
    ((pendingGrant 2).pend = true ∧ 1 < (pendingGrant 2).pendLeft) ∧
    ((pendingGrant 1).pend = true ∧ (pendingGrant 1).pendLeft = 1) := by decide

theorem wit_StepRunsDecodedCommand :
    (let s := { State.reset with hostq := [.writeReg 0 0x03000000] }
     s.hostq = .writeReg 0 0x03000000 :: [] ∧ s.pend = false ∧ decode [0x03000000] = .ok .append) ∧
    (let s := { pendingGrant 1 with hostq := [.writeReg 0 12] }
     s.hostq = .writeReg 0 12 :: [] ∧ s.pend = true ∧ s.pendLeft = 1 ∧
      decode (s.pendWord0 :: (s.pendOps.put (operandWords s.pendWord0 - 1) 12).toList.take (operandWords s.pendWord0)) =
        .ok (.rarSetGrant 42 8 12 0x1001)) ∧
    decodeTableWord 96 0x0000000C00000008352A1001 = some (.rarSetGrant 42 8 12 0x1001) ∧
    State.reset.hostq = [] := by decide

theorem wit_WrittenCommandRuns :
    let s := { State.reset with hostq := [.writeReg 0 0x01000000, .writeReg 0 25, .readReg 4] }
    WellFormed (.initTx false 25) ∧ s.pend = false ∧
      s.hostq = (encode (.initTx false 25)).map (fun w => HostAccess.writeReg 0 w) ++ [.readReg 4] := by decide

theorem wit_RegisterMapReads : GeneralBuild oneSdu ∧ ¬ GeneralBuild State.reset ∧ (0x28 : Word) ≠ 0 := by decide

theorem wit_HostAccessesChangeOnlyTheirTarget : 1023 < State.reset.cfg.maxTbBytes ∧ State.reset.mode ≠ .txBuild ∧
    BufferOk State.reset.cfg State.reset.rxbuf ∧
    (let s := rxState defaultConfig .general [0x3f, 0x00, 0x1f]
     BufferOk s.cfg s.rxbuf ∧ 1 < s.cfg.maxTbBytes) := by decide

/-- A parsed entry, an SDU, and a build whose buffers are too small for them: no run reaches these. -/
theorem wit_AccessesOutsideBuffersStop :
    State.reset.cfg.maxTbBytes ≤ 1024 ∧
    (let s := { rxState defaultConfig .general [] with totalLen := 1025 }
     s.cfg.maxTbBytes < s.totalLen ∧ receiving .general s = true) ∧
    (let s := { rxState defaultConfig .rar [] with totalLen := 1025 }
     s.cfg.maxTbBytes < s.totalLen ∧ receiving .rar s = true) ∧
    (let s := buildState defaultConfig 9 0 [slotOf .sdu 1 8 1017 [] 9 none 0] (some 0) 8
     GeneralBuild s ∧ AllPopulated s ∧ ¬ StagedInside s) ∧
    (let s := { rarState 10 3 none [grant42] with cfg := { defaultConfig with maxTbBytes := 9 } }
     RarBuild s ∧ ¬ LastUnpopulated s ∧ s.rcount ≠ 0 ∧ s.cfg.maxTbBytes < s.totalLen ∧
      (rarHeaders s).length + (grantPayloads (rslotsInUse s)).length ≤ s.totalLen) ∧
    (let s := { secondEmpty with sduFill := 1020 }
     GeneralBuild s ∧ LastEmpty s ∧ isSduLcid s.cfg 2 = true ∧ 1 ≤ sduRoom s ∧
      (sourceRead 2 (sduRequest 8 s) s).1.answer = some (List.replicate 8 2) ∧ 8 ≤ sduRequest 8 s ∧
      s.cfg.maxTbBytes < s.sduFill + 8) ∧
    (let s := { mchEntry with cfg := { mchCfg with maxTbBytes := 6 } }
     CurrentEntry s 0 ∧ (slotAt s 0).kind = .mchSched ∧ 1 < (slotAt s 0).len / 2 ∧
      s.cfg.maxTbBytes < (slotAt s 0).off + 2 * 1 + 2) := by decide

theorem wit_ResetMeetsInvariant : defaultConfig.ok = true ∧ ulCfg.ok = true ∧ mchCfg.ok = true ∧
    ({ mchCfg with maxSubpdus := 255, maxTbBytes := 2 ^ 24, maxRarGrants := 1 } : Config).ok = true := by decide

theorem wit_InvariantKept :
    let s := { twoSdus with hostq := [.writeReg 0 0x05000000] }
    RunInv s ∧ ∃ t, step s = .next t ∧ t.mode = .txDone := ⟨runInv_of_check _ (by decide), _, rfl, rfl⟩

theorem wit_NoStopFromInvariant :
    let s := { secondEmpty with hostq := [.writeRx 1023 7] }
    RunInv s ∧ ∀ a rest, s.hostq = a :: rest → hostAccessOk s.cfg a = true :=
  ⟨runInv_of_check _ (by decide), fun a rest h => by cases h; decide⟩

theorem wit_IdleRefusesAllButInit :
    State.reset.mode = .idle ∧ isInit .parse = false ∧ WellFormed .parse ∧ isInit (.setBsr 2 0 0 0 0) = false ∧
    WellFormed (.setBsr 2 0 0 0 0) ∧ [25#32].length = operandWords 0x01000000 ∧
    ([] : List Word).length = operandWords 0x08000000 := by decide

theorem wit_InitCommandsStartAContainer :
    State.reset.cfg.maxTbBytes < (1025 : Word).toNat ∧ (1024 : Word).toNat ≤ State.reset.cfg.maxTbBytes := by decide

theorem wit_AppendClaimsNextSlot :
    ¬ GeneralBuild State.reset ∧ (GeneralBuild secondEmpty ∧ LastEmpty secondEmpty) ∧
    (let s := { twoSdus with cfg := { defaultConfig with maxSubpdus := 2 } }
     GeneralBuild s ∧ ¬ LastEmpty s ∧ s.count = s.cfg.maxSubpdus) ∧
    (GeneralBuild oneSdu ∧ ¬ LastEmpty oneSdu ∧ oneSdu.count ≠ oneSdu.cfg.maxSubpdus) := by decide

theorem wit_RemoveLastRestoresSnapshot :
    ¬ GeneralBuild State.reset ∧
    (GeneralBuild (buildState defaultConfig 25 25 [] none 0) ∧ (buildState defaultConfig 25 25 [] none 0).count = 0) ∧
    (GeneralBuild oneSdu ∧ oneSdu.count ≠ 0) := by decide

theorem wit_RemoveUndoesAppend : RunInv oneSdu ∧ GeneralBuild oneSdu ∧ ¬ LastEmpty oneSdu ∧
    oneSdu.count ≠ oneSdu.cfg.maxSubpdus ∧ ceCommand (.setTa 3) ≠ none :=
  ⟨runInv_of_check _ (by decide), by decide, by decide, by decide, by decide⟩

/-- One state for each clause of SET_SDU, with space -1, 0 and 1 at the boundary, and a request and answers of 0 bytes. -/
theorem wit_SetSduFollowsItsChecks :
    ¬ GeneralBuild State.reset ∧ (GeneralBuild oneSdu ∧ ¬ LastEmpty oneSdu) ∧
    (GeneralBuild secondEmpty ∧ LastEmpty secondEmpty ∧ isSduLcid secondEmpty.cfg 11 = false) ∧
    (isSduLcid secondEmpty.cfg 10 = true ∧ sduRoom { secondEmpty with remLen := 1 } < 1 ∧
      sduRoom { secondEmpty with remLen := 2 } < 1) ∧
    (1 ≤ sduRoom { secondEmpty with remLen := 3 } ∧ sduRequest 0 secondEmpty = 0) ∧
    (1 ≤ sduRequest 8 secondEmpty ∧
      (sourceRead 2 8 { secondEmpty with source := [⟨none, []⟩] }).1.answer = none) ∧
    (sourceRead 2 7 secondEmpty).1.answer = some (List.replicate 8 2) ∧
    (sourceRead 2 8 { secondEmpty with source := [⟨some [], []⟩] }).1.answer = some [] ∧
    (BufferOk secondEmpty.cfg secondEmpty.sdubuf ∧ secondEmpty.sduFill + 8 ≤ secondEmpty.cfg.maxTbBytes) ∧
    sduRequest 8 secondEmpty = 8 := by decide

theorem wit_SourceErrorCommitsNothing :
    let s := { secondEmpty with source := [⟨none, [1, 2]⟩] }
    GeneralBuild s ∧ LastEmpty s ∧ isSduLcid s.cfg 2 = true ∧ 1 ≤ sduRoom s ∧
      1 ≤ min (8 : Word).toNat (min (sduRoom s).toNat 32767) ∧
      sourceRead 2 8 s = (⟨none, [1, 2]⟩, { s with source := [] }) := by decide

theorem wit_PaddingDecision : 2 < ({ twoSdus with remLen := 3 } : State).remLen ∧
    ({ twoSdus with remLen := 2 } : State).remLen = 2 ∧ ({ twoSdus with remLen := 0 } : State).remLen = 0 := by decide

theorem wit_SubheaderLayout : (slotOf .sdu 1 127 0 [] 0 none 0).len < 128 ∧
    128 ≤ (slotOf .sdu 1 128 0 [] 0 none 0).len ∧ (slotOf .sdu 1 32767 0 [] 0 none 0).len ≤ 32767 := by decide

theorem wit_SerializeWritesTheBlock :
    ¬ GeneralBuild State.reset ∧ (GeneralBuild secondEmpty ∧ ¬ AllPopulated secondEmpty) ∧
    (let s := { twoSdus with totalLen := 24 }
     GeneralBuild s ∧ AllPopulated s ∧ StagedInside s ∧ (blockBytes s).length ≠ s.totalLen) ∧
    (GeneralBuild twoSdus ∧ AllPopulated twoSdus ∧ StagedInside twoSdus ∧
      (blockBytes twoSdus).length = twoSdus.totalLen ∧ twoSdus.totalLen ≤ twoSdus.cfg.maxTbBytes ∧
      BufferOk twoSdus.cfg twoSdus.txbuf) := by decide

theorem wit_TransmitAccounting : RunInv twoSdus ∧ GeneralBuild twoSdus ∧ AllPopulated twoSdus :=
  ⟨runInv_of_check _ (by decide), by decide, by decide⟩

theorem wit_LastSduIsTheLastSduSlot : RunInv twoSdus ∧ GeneralBuild twoSdus :=
  ⟨runInv_of_check _ (by decide), by decide⟩

theorem wit_PopulatedSlotKinds :
    (RunInv twoSdus ∧ GeneralBuild twoSdus ∧ 1 < twoSdus.count ∧ (slotAt twoSdus 1).kind ≠ .empty) ∧
    (RunInv paddingEntry ∧ GeneralParsed paddingEntry ∧ 0 < paddingEntry.count ∧
      (slotAt paddingEntry 0).kind = .padding) :=
  ⟨⟨runInv_of_check _ (by decide), by decide, by decide, by decide⟩,
   ⟨runInv_of_check _ (by decide), by decide, by decide, by decide⟩⟩

/-- The clauses of a SET_ CE command, REM_LEN one below and at what PHR needs. -/
theorem wit_SetBsrEncodesOccupancy :
    ulCfg.ok = true ∧ (GeneralBuild (firstEmpty ulCfg 3) ∧ LastEmpty (firstEmpty ulCfg 3)) ∧
    kindRow ulCfg .longBsr = some ⟨30, 30, .longBsr, some 3⟩ ∧ kindRow defaultConfig .longBsr = none ∧
    ((firstEmpty ulCfg 3).remLen < 3 + 1 ∧ 3 + 1 ≤ (firstEmpty ulCfg 4).remLen) ∧
    ¬ GeneralBuild (freshOf ulCfg) ∧ ¬ LastEmpty (buildState ulCfg 4 4 [] none 0) := by decide

theorem wit_SetFixedElementsEncode :
    (firstEmpty ulCfg 2).cfg.ok = true ∧ kindRow ulCfg .phr = some ⟨26, 26, .phr, some 1⟩ ∧
    kindRow ulCfg .crnti = some ⟨27, 27, .crnti, some 2⟩ ∧ kindRow defaultConfig .ta = some ⟨29, 29, .ta, some 1⟩ ∧
    kindRow defaultConfig .crid = some ⟨28, 28, .crid, some 6⟩ ∧ kindRow ulCfg .ta = none ∧
    ((0xFF : Word) &&& 0xFFFFFFFE#32).toNat < 256 ∧ 256 ≤ ((0x100 : Word) &&& 0xFFFFFFFE#32).toNat := by decide

theorem wit_SettableKindsByDirection :
    (firstEmpty mchCfg 9).cfg.lcid = defaultLcidTable ∧ (firstEmpty mchCfg 9).cfg.dir = .mch ∧
    ceCommand (.setTa 3) = some (.ta, [3]) ∧ GeneralBuild (firstEmpty mchCfg 9) ∧ LastEmpty (firstEmpty mchCfg 9) := by
  decide

theorem wit_GettersCheckTheirEntry :
    decodedKinds .getTa = some [.ta] ∧ ¬ GeneralParsed State.reset ∧
    (GeneralParsed paddingEntry ∧ paddingEntry.cur = none) ∧
    (CurrentEntry mchEntry 0 ∧ (slotAt mchEntry 0).kind ∉ [Kind.ta]) ∧
    isGetter .rarGetBackoff = true := by decide

theorem wit_GettersChangeOnlyResults : isGetter (.getMchSched 0) = true ∧
    ∃ t, exec (.getMchSched 0) mchEntry = .next t ∧ t.code = .ok := ⟨rfl, _, rfl, rfl⟩

theorem wit_GetBsrDecodes :
    let s := fun k => entryState ulCfg [0, 0, 0, 0] (slotOf k 30 3 1 [0, 0x18, 0x7f] 0 none 0)
    (CurrentEntry (s .longBsr) 0 ∧ (slotAt (s .longBsr) 0).kind = .longBsr) ∧
    (CurrentEntry (s .shortBsr) 0 ∧ (slotAt (s .shortBsr) 0).kind = .shortBsr) ∧
    (CurrentEntry (s .truncBsr) 0 ∧ (slotAt (s .truncBsr) 0).kind = .truncBsr) := by decide

theorem wit_GetFixedElementsDecode :
    ∀ k ∈ [Kind.phr, .ta, .crid, .crnti, .scell1, .scell4],
      let s := entryState ulCfg [0, 0, 0, 0] (slotOf k 30 3 1 [1, 2, 3] 0 none 0)
      CurrentEntry s 0 ∧ (slotAt s 0).kind = k := by decide

theorem wit_GetMchSchedReadsRxbuf :
    CurrentEntry mchEntry 0 ∧ (slotAt mchEntry 0).kind = .mchSched ∧ (slotAt mchEntry 0).len / 2 ≤ (2 : BitVec 16).toNat ∧
    (1 : BitVec 16).toNat < (slotAt mchEntry 0).len / 2 ∧ (slotAt mchEntry 0).off + 2 * 1 + 2 ≤ mchEntry.cfg.maxTbBytes := by
  decide

theorem wit_ControlElementRoundTrip :
    ∀ x ∈ [(Instr.setPhr 0x8000, Kind.phr, [0x00#8]), (.setTa 31, .ta, [0x1f]), (.setCrnti 0x4601, .crnti, [0x46, 0x01]),
        (.setCrid 0x010203040506, .crid, [1, 2, 3, 4, 5, 6])] ++
        [(.setScell 0x100, .scell4, [0, 0, 1, 0]), (.setBsr 1 0 10 1552 200000, .longBsr, [0, 0x18, 0x7f]),
        (.setBsr 0 5 0 0 7, .shortBsr, [0xc1])],
      let s := entryState ulCfg (List.replicate 7 0) (slotOf x.2.1 30 3 1 x.2.2 0 none 0)
      CurrentEntry s 0 ∧ ceCommand x.1 = some (x.2.1, x.2.2) ∧ (slotAt s 0).kind = x.2.1 ∧
        (slotAt s 0).ce = CeBytes.ofList x.2.2 := by decide

/-- `e1 01 c2 aa` (B7, DL): an SDU of one byte with the 2-byte subheader, a final SDU of none; the R bits are set. -/
theorem wit_ParseAcceptsExactlyTheGrammar :
    BlockOf defaultConfig [0xe1, 0x01, 0xc2, 0xaa] [⟨.sdu, 1, 1⟩, ⟨.sdu, 2, 0⟩] 3 := by
  refine ⟨[[0xe1, 0x01], [0xc2]], by decide, by decide, by decide, by decide, by decide, ?_, by decide⟩
  intro j e hdr he hh
  match j with
  | 0 =>
    cases he; cases hh
    exact ⟨⟨0xe1, [0x01], rfl, by decide, by decide, fun _ => .inl ⟨0x01, rfl, by decide, by decide⟩,
      fun h => absurd ⟨by decide, .inl rfl⟩ h⟩, by decide, by decide, (fun k n h => nomatch h), (fun h => nomatch h)⟩
  | 1 =>
    cases he; cases hh
    exact ⟨⟨0xc2, [], rfl, by decide, by decide, (fun h => nomatch h.1), fun _ => rfl⟩, by decide, by decide,
      (fun k n h => nomatch h), (fun h => nomatch h)⟩
  | j + 2 => cases he

theorem wit_ParseCommitsEntries :
    let s := rxState defaultConfig .general [0xe1, 0x01, 0xc2, 0xaa]
    receiving .general s = true ∧ s.totalLen ≤ s.cfg.maxTbBytes ∧ 0 < s.totalLen ∧
      BlockOf s.cfg (s.rxbuf.readN 0 s.totalLen) [⟨.sdu, 1, 1⟩, ⟨.sdu, 2, 0⟩] 3 :=
  ⟨by decide, by decide, by decide, wit_ParseAcceptsExactlyTheGrammar⟩

theorem wit_ParseCommitsEntries_empty :
    let s := rxState defaultConfig .general []
    receiving .general s = true ∧ s.totalLen ≤ s.cfg.maxTbBytes ∧ s.totalLen = 0 := by decide

/-- The block `3f` (B7): no final subheader. Its one byte could only be a subheader with E = 0. -/
theorem wit_ParseCorruptEmpties :
    let s := rxState defaultConfig .general [0x3f]
    (receiving .general s = true ∧ 0 < s.totalLen ∧ s.totalLen ≤ s.cfg.maxTbBytes) ∧
    (∀ es h, ¬ BlockOf s.cfg (s.rxbuf.readN 0 s.totalLen) es h) ∧
    ¬ (State.reset.ctype = .general ∧ (State.reset.mode = .rxReady ∨ State.reset.mode = .rxParsed)) := by
  refine ⟨by decide, ?_, by decide⟩
  intro es h ⟨hdrs, hl, h1, _, hf, hn, hall, _⟩
  have hb : (rxState defaultConfig .general [0x3f]).rxbuf.readN 0 (rxState defaultConfig .general [0x3f]).totalLen =
      [0x3f] := by decide
  rw [hb] at hf
  obtain ⟨e, he⟩ : ∃ e, es[es.length - 1]? = some e := ⟨es[es.length - 1], List.getElem?_eq_getElem (by omega)⟩
  obtain ⟨hd, hh⟩ : ∃ d, hdrs[es.length - 1]? = some d := ⟨hdrs[es.length - 1], List.getElem?_eq_getElem (by omega)⟩
  obtain ⟨⟨o, rest, rfl, _, hE, _⟩, _⟩ := hall _ e hd he hh
  have hmem : o ∈ hdrs.flatten := List.mem_flatten.mpr ⟨_, List.mem_of_getElem? hh, List.mem_cons_self⟩
  rw [hf] at hmem
  have ho : o = 0x3f := by simpa using List.mem_of_mem_take hmem
  subst ho
  have hlast : es.length - 1 + 1 = es.length := by omega
  rw [hlast] at hE
  simp at hE

theorem wit_IterNextReturnsEntries :
    ¬ GeneralParsed State.reset ∧ (GeneralParsed mchEntry ∧ mchEntry.count ≤ mchEntry.iter) ∧
    (GeneralParsed paddingEntry ∧ paddingEntry.iter < paddingEntry.count) := by decide

theorem wit_GetSduLocatesPayload :
    let s := entryState defaultConfig (List.replicate 25 0) (slotOf .sdu 1 8 5 [] 0 none 0)
    ¬ GeneralParsed State.reset ∧ (GeneralParsed paddingEntry ∧ paddingEntry.cur = none) ∧
    (CurrentEntry mchEntry 0 ∧ (slotAt mchEntry 0).kind ≠ .sdu) ∧ (CurrentEntry s 0 ∧ (slotAt s 0).kind = .sdu) := by
  decide

theorem wit_SerializedBuildsParseBack :
    RunInv twoSdus ∧ GeneralBuild twoSdus ∧ AllPopulated twoSdus ∧
    ∃ t, exec .serialize twoSdus = .next t ∧ ∀ a, a < twoSdus.totalLen → t.txbuf.read a = t.txbuf.read a :=
  ⟨runInv_of_check _ (by decide), by decide, by decide, _, rfl, fun _ _ => rfl⟩

theorem wit_RarAppendAndRemove :
    ¬ RarBuild State.reset ∧ (RarBuild (rarState 7 7 none [RSlot.zero]) ∧ LastUnpopulated (rarState 7 7 none [RSlot.zero])) ∧
    (let s := rarState 28 0 none [grant42, grant42, grant42, grant42]
     RarBuild s ∧ ¬ LastUnpopulated s ∧ s.rcount = s.cfg.maxRarGrants) ∧
    (let s := rarState 7 7 none []
     RarBuild s ∧ ¬ LastUnpopulated s ∧ s.rcount ≠ s.cfg.maxRarGrants ∧ s.rcount = 0) ∧
    (rarState 7 0 none [grant42]).rcount ≠ 0 := by decide

theorem wit_RarBackoffAndGrantReserve :
    ¬ RarBuild State.reset ∧
    (let s := rarState 0 0 none []
     RarBuild s ∧ s.hasBi = false ∧ s.remLen < 1 ∧ ¬ LastUnpopulated s) ∧
    (let s := rarState 1 1 none []
     RarBuild s ∧ s.hasBi = false ∧ 1 ≤ s.remLen) ∧
    (let s := rarState 1 0 (some 5) []
     RarBuild s ∧ s.hasBi = true) ∧
    (let s := rarState 6 6 none [RSlot.zero]
     RarBuild s ∧ LastUnpopulated s ∧ s.remLen < 7) ∧
    (let s := rarState 7 7 none [RSlot.zero]
     RarBuild s ∧ LastUnpopulated s ∧ 7 ≤ s.remLen) := by decide

theorem wit_RarBudget : RunInv (rarState 10 2 (some 5) [grant42]) ∧ RarBuild (rarState 10 2 (some 5) [grant42]) ∧
    ¬ LastUnpopulated (rarState 10 2 (some 5) [grant42]) := ⟨runInv_of_check _ (by decide), by decide, by decide⟩

theorem wit_RarSerializeWritesTheBlock :
    (let s := rarState 10 2 (some 5) [grant42]
     s.rcount ≤ s.rslots.length ∧ RarBuild s ∧ ¬ LastUnpopulated s ∧ s.hasBi = true ∧ 2 + 6 ≤ s.totalLen ∧
      s.totalLen ≤ s.cfg.maxTbBytes ∧ BufferOk s.cfg s.txbuf) ∧
    (RarBuild (rarState 7 7 none [RSlot.zero]) ∧ LastUnpopulated (rarState 7 7 none [RSlot.zero])) ∧
    (let s := rarState 7 7 none []
     RarBuild s ∧ s.hasBi = false ∧ s.rcount = 0) ∧
    (let s := rarState 6 0 none [grant42]
     RarBuild s ∧ ¬ LastUnpopulated s ∧ s.rcount ≠ 0 ∧ s.totalLen < 1 + 6) ∧
    ¬ RarBuild State.reset := by decide

/-- The headers `85 41` of B9: BI 5, then RAPID 1. -/
theorem wit_RarHeadersOf : RarHeadersOf (some 5) [1] [0x85, 0x41] := by
  refine ⟨rfl, ?_, ?_, ?_⟩
  · intro j o h
    match j with
    | 0 => cases h; decide
    | 1 => cases h; decide
    | j + 2 => cases h
  · intro b hb; cases hb; exact ⟨0x85, rfl, by decide, by decide⟩
  · intro j r h
    match j with
    | 0 => cases h; exact ⟨0x41, rfl, by decide, by decide⟩
    | j + 1 => cases h

theorem wit_RarParseDecodesOrEmpties :
    let s := rxState defaultConfig .rar [0x85, 0x41, 0, 0, 0, 0, 0, 1, 0, 0]
    receiving .rar s = true ∧ s.totalLen ≤ s.cfg.maxTbBytes ∧ 2 + 6 * 1 ≤ s.totalLen ∧
      RarHeadersOf (some 5) [1] ((s.rxbuf.readN 0 s.totalLen).take 2) :=
  ⟨by decide, by decide, by decide, wit_RarHeadersOf⟩

/-- The block `c1` is no RAR block: its one byte has E = 1. -/
theorem wit_RarParseDecodesOrEmpties_corrupt (bi : Option (BitVec 4)) (rapids : List (BitVec 6)) (h : Nat) :
    1 ≤ h → h ≤ 1 → ¬ RarHeadersOf bi rapids (([0xc1] : List Byte).take h) := by
  intro h1 h2 ⟨_, hE, _⟩
  obtain rfl : h = 1 := by omega
  exact absurd (hE 0 0xc1 rfl) (by decide)

theorem wit_RarIterNextReturnsEntries :
    ¬ RarParsed State.reset ∧ (RarParsed (rarParsed 2 (some 1)) ∧ 1 + (rarParsed 2 (some 1)).rcount ≤ 2) ∧
    (RarParsed (rarParsed 0 none) ∧ (rarParsed 0 none).hasBi = true ∧ (rarParsed 0 none).iter = 0) ∧
    (RarParsed (rarParsed 1 (some 0)) ∧ ¬ ((rarParsed 1 (some 0)).hasBi = true ∧ (rarParsed 1 (some 0)).iter = 0) ∧
      (rarParsed 1 (some 0)).iter < 1 + (rarParsed 1 (some 0)).rcount) := by decide

theorem wit_RarGettersDecode :
    (RarParsed (rarParsed 0 none) ∧ (rarParsed 0 none).cur = none) ∧
    (RarParsed (rarParsed 1 (some 0)) ∧ (rarParsed 1 (some 0)).hasBi = true ∧ (rarParsed 1 (some 0)).cur = some 0) ∧
    (RarParsed (rarParsed 2 (some 1)) ∧ (rarParsed 2 (some 1)).cur = some 1) ∧
    State.reset.mode = .idle ∧ ((rarParsed 0 none).ctype = .rar ∧ (rarParsed 0 none).mode ≠ .idle) := by decide

theorem wit_RarRoundTrip :
    let s := rarState 10 2 (some 5) [grant42]
    RunInv s ∧ RarBuild s ∧ ∃ t, exec .rarSerialize s = .next t ∧ t.code = .ok :=
  ⟨runInv_of_check _ (by decide), by decide, _, rfl, rfl⟩

/-- A next state exists for one command of each ending: CommandsEndWithListedCodes, FailuresChangeOnlyStatus, BuffersFrame,
EachRegisterHasItsWriters. -/
theorem wit_CommandsThatEnd :
    (∃ t, exec .append oneSdu = .next t ∧ t.code = .ok) ∧ (∃ t, exec .append State.reset = .next t ∧ t.code = .errState) ∧
    (∃ t, exec .parse (rxState defaultConfig .general [0x3f]) = .next t ∧ t.code = .errCorrupt) ∧
    (∃ t, exec .serialize { twoSdus with totalLen := 24 } = .next t ∧ t.code = .errSerialize) ∧
    (∃ t, exec (.setSdu 2 7) secondEmpty = .next t ∧ t.code = .errSource) ∧
    (∃ t, exec .iterNext mchEntry = .next t ∧ t.code = .iterEnd) ∧
    (∃ t, exec (.setSdu 2 8) secondEmpty = .next t ∧ t.code = .ok) ∧ (∃ t, exec .serialize twoSdus = .next t ∧ t.code = .ok) :=
  ⟨⟨_, rfl, rfl⟩, ⟨_, rfl, rfl⟩, ⟨_, rfl, rfl⟩, ⟨_, rfl, rfl⟩, ⟨_, rfl, rfl⟩, ⟨_, rfl, rfl⟩, ⟨_, rfl, rfl⟩, ⟨_, rfl, rfl⟩⟩

theorem wit_PseudoCommandsLeaveNoEmptySlot : RunInv oneSdu ∧ GeneralBuild oneSdu ∧ ¬ LastEmpty oneSdu ∧
    oneSdu.count ≠ oneSdu.cfg.maxSubpdus ∧ ceCommand (.setCrid 1) ≠ none :=
  ⟨runInv_of_check _ (by decide), by decide, by decide, by decide, by decide⟩

theorem wit_AssemblerRoundTrip :
    WellFormed (.setBsr 1 0 0 0 0) ∧ assemble ⟨"SET_TA", [.num 31]⟩ = some (.setTa 31) := by decide

end Sys2Proof.Tests
end

section
/-! PROOFS. How many words a command has, and what the write of its last word to CMD does (30_encoding R90, R95;
10_state R47). -/

namespace Sys2Proof

/-- No command has more than the four operand words that PEND_OPS holds. -/
theorem operandWords_le_four (w0 : Word) : operandWords w0 ≤ 4 := by
  have rows : ∀ r ∈ opTable, r.nw ≤ 4 := by decide
  unfold operandWords
  split
  · next r found => exact rows r (List.mem_of_find?_eq_some found)
  · exact Nat.zero_le 4

/-- Words that decode are word 0 and as many operand words as its opcode takes. -/
theorem decode_ok_length {w0 : Word} {ops : List Word} {i : Instr} (h : decode (w0 :: ops) = .ok i) :
    ops.length = operandWords w0 := by
  simp only [decode] at h
  unfold operandWords
  split at h
  · cases h
  · next r found =>
    rw [found]
    by_contra wrong
    simp [wrong] at h

theorem decodeTableWord_eq_some {nbits w : Nat} {i : Instr} :
    decodeTableWord nbits w = some i ↔ decode (tableWords nbits w) = .ok i := by
  unfold decodeTableWord
  split <;> simp_all

namespace Machine

theorem runCommand_of_decode {words : List Word} {i : Instr} (h : decode words = .ok i) (s : State) :
    runCommand words s = exec i s := by
  simp [runCommand, h]

theorem writeCmd_word0_last {s : State} {w : Word} (hp : s.pend = false) (hn : operandWords w = 0) :
    writeCmd w s = runCommand [w] s := by
  simp [writeCmd, cmdWord0, hp, hn]

theorem writeCmd_operand_last {s : State} (w : Word) (hp : s.pend = true) (hl : s.pendLeft = 1) :
    writeCmd w s =
      runCommand (s.pendWord0 :: (s.pendOps.put (operandWords s.pendWord0 - 1) w).toList.take (operandWords s.pendWord0))
        { s with pend := false, pendLeft := 0, pendOps := s.pendOps.put (operandWords s.pendWord0 - 1) w } := by
  simp [writeCmd, cmdOperand, hp, hl]

/-- A step whose access is a write to CMD. -/
theorem step_writeCmd {s : State} {w : Word} {rest : List HostAccess} (h : s.hostq = .writeReg 0 w :: rest) :
    step s = writeCmd w { s with hostq := rest } := by
  rw [step_access s _ rest h]
  rfl

/-- The write of the only word of a command executes it. -/
theorem step_word0_last {s : State} {w : Word} {rest : List HostAccess} {i : Instr}
    (hq : s.hostq = .writeReg 0 w :: rest) (hp : s.pend = false) (hd : decode [w] = .ok i) :
    step s = exec i { s with hostq := rest } := by
  have one : operandWords w = 0 := (decode_ok_length hd).symm
  rw [step_writeCmd hq, writeCmd_word0_last (s := { s with hostq := rest }) hp one, runCommand_of_decode hd]

/-- The write of the last operand word of a command executes it. -/
theorem step_operand_last {s : State} {w : Word} {rest : List HostAccess} {i : Instr}
    (hq : s.hostq = .writeReg 0 w :: rest) (hp : s.pend = true) (hl : s.pendLeft = 1)
    (hd : decode (s.pendWord0 ::
      (s.pendOps.put (operandWords s.pendWord0 - 1) w).toList.take (operandWords s.pendWord0)) = .ok i) :
    step s = exec i { s with hostq := rest, pend := false, pendLeft := 0,
                             pendOps := s.pendOps.put (operandWords s.pendWord0 - 1) w } := by
  rw [step_writeCmd hq, writeCmd_operand_last (s := { s with hostq := rest }) w hp hl, runCommand_of_decode hd]

/-- PEND_OPS as `placeCommand` fills it, with the last operand word received, holds the operand words. -/
theorem PendOps.take_put_last_ofList {ops : List Word} (h0 : ops ≠ []) (h4 : ops.length ≤ 4) :
    ((PendOps.ofList ops).put (ops.length - 1) (ops.getLastD 0)).toList.take ops.length = ops := by
  match ops with
  | [_] | [_, _] | [_, _, _] | [_, _, _, _] => rfl

/-- The step after `placeCommand` executes the command that was placed. -/
theorem step_placeCommand {words : List Word} {i : Instr} (hd : decode words = .ok i) (s : State) :
    ∃ w0 ops, step (placeCommand words s) =
      exec i { s with pend := false, pendLeft := 0, pendWord0 := w0, pendOps := ops } := by
  match words with
  | [] => cases hd
  | [w0] => exact ⟨s.pendWord0, s.pendOps, step_word0_last rfl rfl hd⟩
  | w0 :: w1 :: more =>
    have len := decode_ok_length hd
    have received := PendOps.take_put_last_ofList (List.cons_ne_nil w1 more) (len ▸ operandWords_le_four w0)
    rw [len] at received
    exact ⟨w0, _, step_operand_last rfl rfl rfl (received.symm ▸ hd)⟩

/-- Settles O7: the last word of a command is word 0 or an operand word, `withFetchWord` makes the write of that word
the next access, and a step with no access left is idle. -/
theorem stepRunsDecodedCommand : Obligations.StepRunsDecodedCommand :=
  ⟨fun _ _ _ _ hq hp hd => step_word0_last hq hp hd,
   fun _ _ _ _ hq hp hl hd => step_operand_last hq hp hl hd,
   fun s _ _ _ hd => step_placeCommand (decodeTableWord_eq_some.mp hd) s,
   step_idle⟩

end Machine
end Sys2Proof
end

section
/-! PROOFS. What each command can do, said once: `Change` lists the states a command can lead to, STATUS.CODE and the
RESULT registers aside, and `exec_change` says that a command that answers a next state makes one of these changes. -/

namespace Sys2Proof.Machine

/-! ### The changes -/

/-- The state with the container's registers after an SDU's n bytes are staged, `m` the new SDUBUF and the source's
inputs as the SourceRead leaves them (41_container_tx R166). -/
def State.withSdu (s : State) (lcid : BitVec 5) (n : Nat) (m : Memory) (source : List SourceAnswer) (draws : Nat) :
    State :=
  { placeSdu lcid n s with sdubuf := m, source := source, draws := draws }

/-- The state after `reserve_ce` (42_control_elements R201). -/
def State.withCe (s : State) (row : LcidRow) (kind : Kind) (payload : List Byte) : State :=
  { s.setSlot (s.count - 1)
      { slotAt s (s.count - 1) with kind := kind, lcid := row.lcid, len := row.size.getD 0,
                                    ce := CeBytes.ofList (payload.take (row.size.getD 0)) } with
    remLen := s.remLen - (row.size.getD 0 + 1) }

/-- `Change s i c u`: command `i` in `s` can end with the code `c` and leave `u`, with STATUS.CODE and the RESULT
registers still as in `s`. -/
inductive Change (s : State) : Instr → Status → State → Prop where
  | failed {i : Instr} {c : Status} (listed : c ∈ endCodes i)
      (plain : c ∉ [.ok, .errSerialize, .errCorrupt, .errSource]) : Change s i c s
  | answered {i : Instr} (reads : isGetter i = true ∨ ∃ lcid n, i = .setSdu lcid n) : Change s i .ok s
  | initTx (pad : Bool) (n : Word) (fits : n.toNat ≤ s.cfg.maxTbBytes) :
      Change s (.initTx pad n) .ok (s.initContainer .general .txBuild pad n.toNat n.toNat)
  | initRx (n : Word) (fits : n.toNat ≤ s.cfg.maxTbBytes) :
      Change s (.initRx n) .ok (s.initContainer .general .rxReady false n.toNat 0)
  | rarInitTx (n : Word) (fits : n.toNat ≤ s.cfg.maxTbBytes) :
      Change s (.rarInitTx n) .ok (s.initContainer .rar .txBuild false n.toNat n.toNat)
  | rarInitRx (n : Word) (fits : n.toNat ≤ s.cfg.maxTbBytes) :
      Change s (.rarInitRx n) .ok (s.initContainer .rar .rxReady false n.toNat 0)
  | append (build : GeneralBuild s) (populated : ¬ LastEmpty s) (room : s.count ≠ s.cfg.maxSubpdus) :
      Change s .append .ok { s.setSlot s.count (freshSlot s) with count := s.count + 1 }
  | removeLast (build : GeneralBuild s) (nonempty : s.count ≠ 0) :
      Change s .removeLast .ok
        { s with remLen := (slotAt s (s.count - 1)).remBefore, lastSdu := (slotAt s (s.count - 1)).lastBefore,
                 sduFill := (slotAt s (s.count - 1)).fillBefore, count := s.count - 1 }
  | noSdu (lcid : BitVec 5) (req : Word) {source : List SourceAnswer} {draws : Nat}
      (read : (sourceRead lcid (sduRequest req s) s).2 = { s with source := source, draws := draws }) :
      Change s (.setSdu lcid req) .ok { s with source := source, draws := draws }
  | sourceError (lcid : BitVec 5) (req : Word) {source : List SourceAnswer} {draws : Nat} {bytes : List Byte}
      (read : (sourceRead lcid (sduRequest req s) s).2 = { s with source := source, draws := draws })
      (fits : bytes = [] ∨ s.sduFill + bytes.length ≤ s.cfg.maxTbBytes) :
      Change s (.setSdu lcid req) .errSource
        { s with sdubuf := s.sdubuf.writeN s.sduFill bytes, source := source, draws := draws }
  | setSdu (lcid : BitVec 5) (req : Word) {source : List SourceAnswer} {draws : Nat} {d : List Byte}
      (build : GeneralBuild s) (empty : LastEmpty s) (isSdu : isSduLcid s.cfg lcid = true)
      (read : (sourceRead lcid (sduRequest req s) s).2 = { s with source := source, draws := draws })
      (nonempty : 1 ≤ d.length) (asked : d.length ≤ sduRequest req s) (fits : s.sduFill + d.length ≤ s.cfg.maxTbBytes) :
      Change s (.setSdu lcid req) .ok (s.withSdu lcid d.length (s.sdubuf.writeN s.sduFill d) source draws)
  | setCe {i : Instr} {kind : Kind} {payload : List Byte} {row : LcidRow} (sets : ceCommand i = some (kind, payload))
      (build : GeneralBuild s) (empty : LastEmpty s) (hasRow : kindRow s.cfg kind = some row)
      (room : row.size.getD 0 + 1 ≤ s.remLen) :
      Change s i .ok (s.withCe row kind payload)
  | serialized {i : Instr} {ct : CType} {out : List Byte}
      (serializes : (ct = .general ∧ i = .serialize) ∨ (ct = .rar ∧ i = .rarSerialize))
      (build : building ct s = true) (whole : out.length = s.totalLen)
      (fits : out.length = 0 ∨ out.length ≤ s.cfg.maxTbBytes) :
      Change s i .ok { s with txbuf := s.txbuf.writeN 0 out, mode := .txDone }
  | notSerialized {i : Instr} {ct : CType}
      (serializes : (ct = .general ∧ i = .serialize) ∨ (ct = .rar ∧ i = .rarSerialize))
      (build : building ct s = true) :
      Change s i .errSerialize { s with mode := .idle }
  | parsed {w : Walk} (receives : receiving .general s = true)
      (walked : parseBlock s.cfg (s.rxbuf.readN 0 s.totalLen) = some w) :
      Change s .parse .ok
        { s with slots := commitEntries (s.rxbuf.readN 0 s.totalLen) w.entries w.hlen s.slots,
                 count := w.entries.length, corrupt := false, mode := .rxParsed, iter := 0, cur := none }
  | parseCorrupt (receives : receiving .general s = true)
      (refused : parseBlock s.cfg (s.rxbuf.readN 0 s.totalLen) = none) :
      Change s .parse .errCorrupt
        { s with count := 0, corrupt := true, mode := .rxParsed, iter := 0, cur := none }
  | iterNext (parsed : GeneralParsed s) (more : s.iter < s.count) :
      Change s .iterNext .ok { s with cur := some s.iter, iter := s.iter + 1 }
  | rarAppend (build : RarBuild s) (populated : ¬ LastUnpopulated s) (room : s.rcount ≠ s.cfg.maxRarGrants) :
      Change s .rarAppend .ok { s.setRSlot s.rcount RSlot.zero with rcount := s.rcount + 1 }
  | rarRemoveLast (build : RarBuild s) (nonempty : s.rcount ≠ 0) :
      Change s .rarRemoveLast .ok
        { s with remLen := if (rslotAt s (s.rcount - 1)).populated then s.remLen + 7 else s.remLen,
                 rcount := s.rcount - 1 }
  | rarSetBackoff (bi : BitVec 4) (build : RarBuild s) (room : s.hasBi = false → 1 ≤ s.remLen) :
      Change s (.rarSetBackoff bi) .ok
        { s with remLen := if s.hasBi then s.remLen else s.remLen - 1, hasBi := true, bi := bi }
  | rarSetGrant (rapid : BitVec 6) (ta : BitVec 11) (grant : BitVec 20) (tc : BitVec 16) (build : RarBuild s)
      (unpopulated : LastUnpopulated s) (room : 7 ≤ s.remLen) :
      Change s (.rarSetGrant rapid ta grant tc) .ok
        { s.setRSlot (s.rcount - 1) ⟨true, rapid, ta, grant, tc⟩ with remLen := s.remLen - 7 }
  | rarParsed {h : RarHeads} (receives : receiving .rar s = true)
      (walked : parseRar s.cfg.maxRarGrants (s.rxbuf.readN 0 s.totalLen) = some h) :
      Change s .rarParse .ok
        { s with rslots := commitGrants h.rapids ((s.rxbuf.readN 0 s.totalLen).drop h.hlen) s.rslots,
                 rcount := h.rapids.length, hasBi := h.bi.isSome, bi := h.bi.getD 0, corrupt := false,
                 mode := .rxParsed, iter := 0, cur := none }
  | rarParseCorrupt (receives : receiving .rar s = true)
      (refused : parseRar s.cfg.maxRarGrants (s.rxbuf.readN 0 s.totalLen) = none) :
      Change s .rarParse .errCorrupt
        { s with rcount := 0, hasBi := false, bi := 0, corrupt := true, mode := .rxParsed, iter := 0, cur := none }
  | rarIterNext (parsed : RarParsed s) (more : s.iter < biCount s + s.rcount) :
      Change s .rarIterNext .ok { s with cur := some s.iter, iter := s.iter + 1 }

/-- `t` is what a change leaves with its code in STATUS.CODE and, when that is OK, some RESULT registers written. -/
def Changed (i : Instr) (s t : State) : Prop :=
  ∃ c xs u, Change s i c u ∧ (c ≠ .ok → xs = []) ∧ t = (u.withResults xs).withCode c

/-- Every next state the outcome `r` of command `i` in `s` can be is a changed one. -/
def Makes (i : Instr) (s : State) (r : Result) : Prop := ∀ t, r = .next t → Changed i s t

/-! ### The outcomes commands are made of -/

theorem Makes.fail {i : Instr} {s u : State} {c : Status} (h : Change s i c u) : Makes i s (fail c u) := by
  intro t ht
  cases ht
  exact ⟨c, [], u, h, fun _ => rfl, rfl⟩

theorem Makes.failed {i : Instr} {s : State} (c : Status) (listed : c ∈ endCodes i)
    (plain : c ∉ [.ok, .errSerialize, .errCorrupt, .errSource]) : Makes i s (Machine.fail c s) :=
  .fail (.failed listed plain)

theorem Makes.doneWith {i : Instr} {s u : State} (xs : List Word) (h : Change s i .ok u) :
    Makes i s (doneWith xs u) := by
  intro t ht
  cases ht
  exact ⟨.ok, xs, u, h, fun h => absurd rfl h, rfl⟩

theorem Makes.done {i : Instr} {s u : State} (h : Change s i .ok u) : Makes i s (done u) :=
  Makes.doneWith [] h

theorem Makes.ite {i : Instr} {s : State} {p : Prop} [Decidable p] {a b : Result} (ha : p → Makes i s a)
    (hb : ¬ p → Makes i s b) : Makes i s (if p then a else b) := by
  split
  · exact ha ‹p›
  · exact hb ‹¬ p›

/-- A check written `if !b`: the command fails unless `b`. -/
theorem Makes.unless {i : Instr} {s : State} {b : Bool} {x y : Result} (hx : b = false → Makes i s x)
    (hy : b = true → Makes i s y) : Makes i s (if !b then x else y) :=
  .ite (fun h => hx (by simpa using h)) fun h => hy (by simpa using h)

theorem Makes.orFault {α : Type} {i : Instr} {s : State} {r : Option α} {k : α → Result}
    (h : ∀ x, r = some x → Makes i s (k x)) : Makes i s (orFault r k) := by
  intro t ht
  obtain ⟨x, hr, hk⟩ := orFault_next ht
  exact h x hr t hk

/-- The checks every SET_ CE command makes, then the reservation. -/
theorem Makes.setCe {i : Instr} {kind : Kind} {payload : List Byte} (sets : ceCommand i = some (kind, payload))
    (s : State) : Makes i s (setCe kind payload s) := by
  have codes : endCodes i = [.ok, .errIllegal, .errState, .errDirection, .errCapacity] := by
    cases i with
    | setBsr | setPhr | setTa | setCrid | setCrnti | setScell => rfl
    | _ => cases sets
  rcases setCe_cases kind payload s with ⟨c, hc, h⟩ | ⟨row, hb, he, hrow, h⟩
  · rw [h]
    rcases hc with rfl | rfl <;> exact .failed _ (by simp [codes]) (by decide)
  · rw [h]
    rcases reserveCe_cases row kind payload s with ⟨_, h⟩ | ⟨room, h⟩
    · rw [h]
      exact .failed .errCapacity (by simp [codes]) (by decide)
    · rw [h]
      exact .done (.setCe sets ((building_general s).mp hb) ((lastSlotEmpty_iff s).mp he) hrow room)

/-- The checks every general GET_ command makes, then its reading. -/
theorem Makes.withEntry {i : Instr} {s : State} {decodes : Kind → Bool} {k : Slot → Result}
    (codes : .errState ∈ endCodes i) (hk : ∀ e, Makes i s (k e)) : Makes i s (withEntry decodes s k) := by
  rcases withEntry_cases decodes s k with h | ⟨c, _, _, _, h⟩
  · rw [h]
    exact .failed .errState codes (by decide)
  · rw [h]
    exact hk _

theorem Makes.initCommand {i : Instr} {s : State} {ct : CType} {m : Mode} {pad : Bool} {n : Word} {r : Nat}
    (codes : .errIllegal ∈ endCodes i)
    (h : n.toNat ≤ s.cfg.maxTbBytes → Change s i .ok (s.initContainer ct m pad n.toNat r)) :
    Makes i s (initCommand ct m pad n r s) := by
  rcases initCommand_cases ct m pad n r s with ⟨_, hr⟩ | ⟨fits, hr⟩
  · rw [hr]
    exact .failed .errIllegal codes (by decide)
  · rw [hr]
    exact .done (h fits)

theorem Makes.commitBlock {i : Instr} {s : State} {ct : CType}
    (serializes : (ct = .general ∧ i = .serialize) ∨ (ct = .rar ∧ i = .rarSerialize)) (build : building ct s = true)
    (out : List Byte) (xs : List Word) : Makes i s (commitBlock out xs s) := by
  rcases commitBlock_cases out xs s with ⟨_, h⟩ | ⟨_, _, _, h⟩ | ⟨whole, fits, h⟩
  · rw [h]
    exact .fail (.notSerialized serializes build)
  · rw [h]
    exact fun t ht => nomatch ht
  · rw [h]
    exact .doneWith xs (.serialized serializes build whole fits)

/-! ### The commands -/

theorem append_makes (s : State) : Makes .append s (execAppend s) :=
  .unless (fun _ => .failed .errState (by decide) (by decide)) fun build =>
  .ite (fun _ => .failed .errState (by decide) (by decide)) fun populated =>
  .ite (fun _ => .failed .errCapacity (by decide) (by decide)) fun room =>
  .doneWith _ (.append ((building_general s).mp build) (mt (lastSlotEmpty_iff s).mpr populated) room)

theorem removeLast_makes (s : State) : Makes .removeLast s (execRemoveLast s) :=
  .unless (fun _ => .failed .errState (by decide) (by decide)) fun build =>
  .ite (fun _ => .failed .errState (by decide) (by decide)) fun nonempty =>
  .doneWith _ (.removeLast ((building_general s).mp build) nonempty)

theorem serialize_makes (s : State) : Makes .serialize s (execSerialize s) :=
  .unless (fun _ => .failed .errState (by decide) (by decide)) fun build =>
  .ite (fun _ => .failed .errState (by decide) (by decide)) fun _ =>
  .orFault fun _ _ => .commitBlock (.inl ⟨rfl, rfl⟩) build _ _

/-- A SourceRead changes the source's inputs alone. -/
theorem sourceRead_state (lcid : BitVec 5) (mx : Nat) (s : State) :
    ∃ source draws, (sourceRead lcid mx s).2 = { s with source := source, draws := draws } := by
  rcases sourceRead_cases lcid mx s with ⟨a, rest, _, h⟩ | ⟨_, h⟩
  · exact ⟨rest, s.draws, by rw [h]⟩
  · exact ⟨s.source, s.draws + 1, by rw [h]⟩

/-- What SET_SDU makes of the source's answer, once its checks have passed. -/
theorem takeAnswer_makes {s : State} {lcid : BitVec 5} {req : Word} (build : GeneralBuild s) (empty : LastEmpty s)
    (isSdu : isSduLcid s.cfg lcid = true) (a : SourceAnswer) {source : List SourceAnswer} {draws : Nat}
    (read : (sourceRead lcid (sduRequest req s) s).2 = { s with source := source, draws := draws }) :
    Makes (.setSdu lcid req) s
      (takeAnswer lcid (sduRequest req s) a { s with source := source, draws := draws }) := by
  have refuse : Makes (.setSdu lcid req) s (sourceFailed a.residue { s with source := source, draws := draws }) :=
    .fail (.sourceError lcid req read (by
      rw [← List.length_eq_zero_iff, List.length_take]
      dsimp only
      omega))
  unfold takeAnswer
  split
  · exact refuse
  · next d _ =>
    refine .ite (fun _ => refuse) fun asked => .ite (fun _ => ?_) fun nonempty => .orFault fun m hm => ?_
    · exact .doneWith _ (.noSdu lcid req read)
    · obtain ⟨rfl, fits⟩ := memWrite_some hm
      exact .doneWith _ (.setSdu lcid req build empty isSdu read (by omega) (by omega) (fits.resolve_left nonempty))

theorem setSdu_makes (lcid : BitVec 5) (req : Word) (s : State) :
    Makes (.setSdu lcid req) s (execSetSdu lcid req s) := by
  refine .unless (fun _ => .failed .errState (by simp [endCodes]) (by decide)) fun build =>
    .unless (fun _ => .failed .errState (by simp [endCodes]) (by decide)) fun empty =>
    .unless (fun _ => .failed .errDirection (by simp [endCodes]) (by decide)) fun isSdu =>
    .ite (fun _ => .failed .errCapacity (by simp [endCodes]) (by decide)) fun _ =>
    .ite (fun _ => .doneWith _ (.answered (.inr ⟨lcid, req, rfl⟩))) fun _ => ?_
  obtain ⟨source, draws, read⟩ := sourceRead_state lcid (sduRequest req s) s
  have taken := takeAnswer_makes ((building_general s).mp build) ((lastSlotEmpty_iff s).mp empty) isSdu
    (sourceRead lcid (sduRequest req s) s).1 read
  rwa [← read] at taken

theorem setBsr_makes (fmt : BitVec 2) (o0 o1 o2 o3 : Word) (s : State) :
    Makes (.setBsr fmt o0 o1 o2 o3) s (execSetBsr fmt o0 o1 o2 o3 s) := by
  unfold execSetBsr
  split
  · exact .failed .errIllegal (by simp [endCodes]) (by decide)
  · next kind format => exact .setCe (by simp [ceCommand, format]) s

theorem parse_makes (s : State) : Makes .parse s (execParse s) := by
  refine .unless (fun _ => .failed .errState (by decide) (by decide)) fun receives => .orFault fun bytes read => ?_
  obtain ⟨rfl, _⟩ := memRead_some read
  split
  · next refused => exact .fail (.parseCorrupt receives refused)
  · next w walked => exact .doneWith _ (.parsed receives walked)

theorem iterNext_makes (s : State) : Makes .iterNext s (execIterNext s) :=
  .unless (fun _ => .failed .errState (by decide) (by decide)) fun parsed =>
  .ite (fun _ => .failed .iterEnd (by decide) (by decide)) fun more =>
  .doneWith _ (.iterNext ((parsed_general s).mp parsed) (Nat.lt_of_not_le more))

theorem getSdu_makes (s : State) : Makes .getSdu s (execGetSdu s) := by
  refine .unless (fun _ => .failed .errState (by decide) (by decide)) fun _ => ?_
  split
  · exact .failed .errState (by decide) (by decide)
  · exact .ite (fun _ => .doneWith _ (.answered (.inl rfl))) fun _ => .failed .errState (by decide) (by decide)

theorem getBsr_makes (s : State) : Makes .getBsr s (execGetBsr s) :=
  .withEntry (by decide) fun _ => .doneWith _ (.answered (.inl rfl))

theorem getPhr_makes (s : State) : Makes .getPhr s (execGetPhr s) :=
  .withEntry (by decide) fun _ => .doneWith _ (.answered (.inl rfl))

theorem getTa_makes (s : State) : Makes .getTa s (execGetTa s) :=
  .withEntry (by decide) fun _ => .doneWith _ (.answered (.inl rfl))

theorem getCrid_makes (s : State) : Makes .getCrid s (execGetCrid s) :=
  .withEntry (by decide) fun _ => .doneWith _ (.answered (.inl rfl))

theorem getCrnti_makes (s : State) : Makes .getCrnti s (execGetCrnti s) :=
  .withEntry (by decide) fun _ => .doneWith _ (.answered (.inl rfl))

theorem getScell_makes (s : State) : Makes .getScell s (execGetScell s) :=
  .withEntry (by decide) fun _ =>
  .ite (fun _ => .doneWith _ (.answered (.inl rfl))) fun _ => .doneWith _ (.answered (.inl rfl))

theorem getMchSched_makes (k : BitVec 16) (s : State) : Makes (.getMchSched k) s (execGetMchSched k s) :=
  .withEntry (by simp [endCodes]) fun _ =>
  .ite (fun _ => .failed .errIllegal (by simp [endCodes]) (by decide)) fun _ =>
  .orFault fun _ _ => .doneWith _ (.answered (.inl rfl))

theorem rarAppend_makes (s : State) : Makes .rarAppend s (execRarAppend s) :=
  .unless (fun _ => .failed .errState (by decide) (by decide)) fun build =>
  .ite (fun _ => .failed .errState (by decide) (by decide)) fun populated =>
  .ite (fun _ => .failed .errCapacity (by decide) (by decide)) fun room =>
  .doneWith _ (.rarAppend ((building_rar s).mp build) (mt (lastRSlotUnpopulated_iff s).mpr populated) room)

theorem rarRemoveLast_makes (s : State) : Makes .rarRemoveLast s (execRarRemoveLast s) :=
  .unless (fun _ => .failed .errState (by decide) (by decide)) fun build =>
  .ite (fun _ => .failed .errState (by decide) (by decide)) fun nonempty =>
  .doneWith _ (.rarRemoveLast ((building_rar s).mp build) nonempty)

theorem rarSetBackoff_makes (bi : BitVec 4) (s : State) : Makes (.rarSetBackoff bi) s (execRarSetBackoff bi s) := by
  refine .unless (fun _ => .failed .errState (by simp [endCodes]) (by decide)) fun build => ?_
  have change := Change.rarSetBackoff (s := s) bi ((building_rar s).mp build)
  refine .ite (fun had => .done ?_) fun had =>
    .ite (fun _ => .failed .errCapacity (by simp [endCodes]) (by decide)) fun room => .done ?_
  · simpa [had] using change
  · simpa [had] using change fun _ => Nat.le_of_not_lt room

theorem rarSetGrant_makes (rapid : BitVec 6) (ta : BitVec 11) (grant : BitVec 20) (tc : BitVec 16) (s : State) :
    Makes (.rarSetGrant rapid ta grant tc) s (execRarSetGrant rapid ta grant tc s) :=
  .unless (fun _ => .failed .errState (by simp [endCodes]) (by decide)) fun build =>
  .unless (fun _ => .failed .errState (by simp [endCodes]) (by decide)) fun unpopulated =>
  .ite (fun _ => .failed .errCapacity (by simp [endCodes]) (by decide)) fun room =>
  .done (.rarSetGrant rapid ta grant tc ((building_rar s).mp build) ((lastRSlotUnpopulated_iff s).mp unpopulated)
    (Nat.le_of_not_lt room))

theorem rarSerialize_makes (s : State) : Makes .rarSerialize s (execRarSerialize s) :=
  .unless (fun _ => .failed .errState (by decide) (by decide)) fun build =>
  .ite (fun _ => .failed .errState (by decide) (by decide)) fun _ =>
  .ite (fun _ => .failed .errState (by decide) (by decide)) fun _ => .commitBlock (.inr ⟨rfl, rfl⟩) build _ _

theorem rarParse_makes (s : State) : Makes .rarParse s (execRarParse s) := by
  refine .unless (fun _ => .failed .errState (by decide) (by decide)) fun receives => .orFault fun bytes read => ?_
  obtain ⟨rfl, _⟩ := memRead_some read
  split
  · next refused => exact .fail (.rarParseCorrupt receives refused)
  · next h walked => exact .doneWith _ (.rarParsed receives walked)

theorem rarIterNext_makes (s : State) : Makes .rarIterNext s (execRarIterNext s) :=
  .unless (fun _ => .failed .errState (by decide) (by decide)) fun parsed =>
  .ite (fun _ => .failed .iterEnd (by decide) (by decide)) fun more =>
  .doneWith _ (.rarIterNext ((parsed_rar s).mp parsed) (Nat.lt_of_not_le more))

theorem rarGetGrant_makes (s : State) : Makes .rarGetGrant s (execRarGetGrant s) := by
  refine .unless (fun _ => .failed .errState (by decide) (by decide)) fun _ => ?_
  split
  · exact .failed .errState (by decide) (by decide)
  · exact .ite (fun _ => .failed .errState (by decide) (by decide)) fun _ => .doneWith _ (.answered (.inl rfl))

theorem rarGetBackoff_makes (s : State) : Makes .rarGetBackoff s (execRarGetBackoff s) :=
  .ite (fun _ => .failed .errState (by decide) (by decide)) fun _ => .doneWith _ (.answered (.inl rfl))

/-- A command that answers a next state makes one of the changes listed. -/
theorem exec_change {i : Instr} {s t : State} (h : exec i s = .next t) : Changed i s t := by
  suffices Makes i s (exec i s) from this t h
  cases i with
  | initTx pad n => exact .initCommand (by simp [endCodes]) (.initTx pad n)
  | initRx n => exact .initCommand (by simp [endCodes]) (.initRx n)
  | append => exact append_makes s
  | removeLast => exact removeLast_makes s
  | serialize => exact serialize_makes s
  | parse => exact parse_makes s
  | iterNext => exact iterNext_makes s
  | setSdu lcid req => exact setSdu_makes lcid req s
  | setBsr fmt o0 o1 o2 o3 => exact setBsr_makes fmt o0 o1 o2 o3 s
  | setPhr db => exact .setCe rfl s
  | setTa ta => exact .setCe rfl s
  | setCrid crid => exact .setCe rfl s
  | setCrnti rnti => exact .setCe rfl s
  | setScell bitmap => exact .setCe rfl s
  | getSdu => exact getSdu_makes s
  | getBsr => exact getBsr_makes s
  | getPhr => exact getPhr_makes s
  | getTa => exact getTa_makes s
  | getCrid => exact getCrid_makes s
  | getCrnti => exact getCrnti_makes s
  | getScell => exact getScell_makes s
  | getMchSched k => exact getMchSched_makes k s
  | rarInitTx n => exact .initCommand (by simp [endCodes]) (.rarInitTx n)
  | rarInitRx n => exact .initCommand (by simp [endCodes]) (.rarInitRx n)
  | rarAppend => exact rarAppend_makes s
  | rarRemoveLast => exact rarRemoveLast_makes s
  | rarSetBackoff bi => exact rarSetBackoff_makes bi s
  | rarSetGrant rapid ta grant tc => exact rarSetGrant_makes rapid ta grant tc s
  | rarSerialize => exact rarSerialize_makes s
  | rarParse => exact rarParse_makes s
  | rarIterNext => exact rarIterNext_makes s
  | rarGetGrant => exact rarGetGrant_makes s
  | rarGetBackoff => exact rarGetBackoff_makes s

end Sys2Proof.Machine
end

section
/-! PROOFS. What a legal LCID table gives (00_scope R7, 30_encoding R102, R106 to R110): the row, the class and the kind
of an LCID agree. -/

namespace Sys2Proof

/-! ### Rows of a legal table -/

/-- The tables of a legal configuration are legal, and the one DIR selects is one of them. -/
theorem Config.rows_ok {c : Config} (h : c.ok = true) : lcidRowsOk c.rows = true := by
  simp only [Config.ok, Bool.and_eq_true] at h
  obtain ⟨⟨⟨_, dl⟩, ul⟩, mch⟩ := h
  unfold Config.rows LcidTable.rows
  split
  · exact dl
  · exact ul
  · exact mch

/-- What a legal table says of each row. -/
theorem Config.row_ok {c : Config} (h : c.ok = true) {r : LcidRow} (hr : r ∈ c.rows) :
    r.lo ≤ r.hi ∧ r.hi ≤ 31 ∧ r.sizeOk = true ∧ (r.kind = .sdu ∨ r.lo = r.hi) ∧ (r.kind = .padding → r.lo = 31) := by
  have rows := Config.rows_ok h
  simp only [lcidRowsOk, Bool.and_eq_true, List.all_eq_true] at rows
  obtain ⟨⟨⟨each, _⟩, _⟩, padding⟩ := rows
  have own := each r hr
  have pad := padding r hr
  simp at own pad
  obtain ⟨⟨⟨range, top⟩, size⟩, single⟩ := own
  exact ⟨range, top, size, single, fun k => pad.resolve_left (absurd k)⟩

/-- Rows of a legal table that share an LCID are the same row. -/
theorem Config.row_unique {c : Config} (h : c.ok = true) {r q : LcidRow} (hr : r ∈ c.rows) (hq : q ∈ c.rows) {n : Nat}
    (inR : r.lo ≤ n ∧ n ≤ r.hi) (inQ : q.lo ≤ n ∧ n ≤ q.hi) : r = q := by
  have rows := Config.rows_ok h
  simp only [lcidRowsOk, Bool.and_eq_true, decide_eq_true_eq] at rows
  obtain ⟨⟨⟨_, apart⟩, _⟩, _⟩ := rows
  have disjoint : ∀ x y : LcidRow, x.apart y = true → x.lo ≤ n ∧ n ≤ x.hi → y.lo ≤ n ∧ n ≤ y.hi → False := by
    intro x y hxy hx hy
    simp [LcidRow.apart] at hxy
    omega
  exact (apart.imp fun {x y} hxy hx hy => (disjoint x y hxy hx hy).elim).forall_of_forall_of_flip
    (R := fun x y => x.lo ≤ n ∧ n ≤ x.hi → y.lo ≤ n ∧ n ≤ y.hi → x = y) (fun _ _ _ _ => rfl)
    (apart.imp fun {x y} hxy hy hx => (disjoint x y hxy hx hy).elim) hr hq inR inQ

/-! ### The class of a row and of an LCID -/

@[simp] theorem LcidRow.cls_kind (r : LcidRow) : r.cls.kind = r.kind := by
  obtain ⟨lo, hi, kind, size⟩ := r
  cases kind <;> cases size <;> rfl

theorem LcidRow.cls_eq_sdu_iff (r : LcidRow) : r.cls = .sdu ↔ r.kind = .sdu := by
  obtain ⟨lo, hi, kind, size⟩ := r
  cases kind <;> cases size <;> simp [LcidRow.cls]

/-- An LCID has the class of a row that contains it, or none does and it is reserved. -/
theorem classOf_cases (c : Config) (lcid : BitVec 5) :
    (∃ r ∈ c.rows, (r.lo ≤ lcid.toNat ∧ lcid.toNat ≤ r.hi) ∧ classOf c lcid = r.cls) ∨ classOf c lcid = .reserved := by
  unfold classOf
  split
  · next r found =>
    have inside := List.find?_some found
    simp at inside
    exact .inl ⟨r, List.mem_of_find?_eq_some found, inside, rfl⟩
  · exact .inr rfl

/-- In a legal table the class of an LCID is that of any row that contains it. -/
theorem classOf_eq_cls {c : Config} (h : c.ok = true) {r : LcidRow} (hr : r ∈ c.rows) {lcid : BitVec 5}
    (inR : r.lo ≤ lcid.toNat ∧ lcid.toNat ≤ r.hi) : classOf c lcid = r.cls := by
  unfold classOf
  split
  · next q found =>
    have inQ := List.find?_some found
    simp at inQ
    rw [Config.row_unique h hr (List.mem_of_find?_eq_some found) inR inQ]
  · next missed =>
    have := List.find?_eq_none.mp missed r hr
    simp at this
    omega

theorem isSduLcid_iff (c : Config) (lcid : BitVec 5) : isSduLcid c lcid = true ↔ classOf c lcid = .sdu := by
  simp [isSduLcid]

/-- An LCID's kind is SDU iff the LCID is an SDU LCID (30_encoding R106). -/
theorem classOf_kind_eq_sdu_iff (c : Config) (lcid : BitVec 5) :
    (classOf c lcid).kind = .sdu ↔ isSduLcid c lcid = true := by
  rw [isSduLcid_iff]
  rcases classOf_cases c lcid with ⟨r, _, _, h⟩ | h
  · rw [h, LcidRow.cls_kind, LcidRow.cls_eq_sdu_iff]
  · simp [h, LcidClass.kind]

/-- No LCID has kind EMPTY unless it is reserved. -/
theorem classOf_kind_ne_empty {c : Config} (h : c.ok = true) {lcid : BitVec 5} (hl : classOf c lcid ≠ .reserved) :
    (classOf c lcid).kind ≠ .empty := by
  rcases classOf_cases c lcid with ⟨r, hr, _, hc⟩ | hc
  · obtain ⟨_, _, size, _⟩ := Config.row_ok h hr
    rw [hc, LcidRow.cls_kind]
    intro empty
    simp [LcidRow.sizeOk, empty] at size
  · exact absurd hc hl

/-- Only LCID 31 is padding (30_encoding R102). -/
theorem lcid_of_classOf_padding {c : Config} (h : c.ok = true) {lcid : BitVec 5}
    (pad : (classOf c lcid).kind = .padding) : lcid = 31 := by
  rcases classOf_cases c lcid with ⟨r, hr, inR, hc⟩ | hc
  · obtain ⟨_, top, _, _, lo⟩ := Config.row_ok h hr
    rw [hc, LcidRow.cls_kind] at pad
    have := lo pad
    apply BitVec.eq_of_toNat_eq
    change lcid.toNat = 31
    omega
  · simp [hc, LcidClass.kind] at pad

/-! ### The row of a kind -/

theorem kindRow_some {c : Config} {k : Kind} {r : LcidRow} (h : kindRow c k = some r) : r ∈ c.rows ∧ r.kind = k :=
  ⟨List.mem_of_find?_eq_some h, by simpa using List.find?_some h⟩

/-- The LCID of a kind's row has the class of that row (42_control_elements R201). -/
theorem classOf_kindRow {c : Config} (h : c.ok = true) {k : Kind} {r : LcidRow} (hk : kindRow c k = some r) :
    classOf c r.lcid = r.cls := by
  obtain ⟨hr, _⟩ := kindRow_some hk
  obtain ⟨range, top, _⟩ := Config.row_ok h hr
  have lo : r.lcid.toNat = r.lo := by
    rw [LcidRow.lcid, BitVec.toNat_ofNat, Nat.mod_eq_of_lt (by omega)]
  exact classOf_eq_cls h hr (by omega)

namespace Machine

/-- The payload size of the kinds the SET_ CE commands encode (30_encoding R112 to R120). -/
def settableSize : Kind → Option Nat
  | .shortBsr | .truncBsr | .phr | .ta | .scell1 => some 1
  | .crnti => some 2
  | .longBsr => some 3
  | .scell4 => some 4
  | .crid => some 6
  | _ => none

theorem bsrKind_some {fmt : BitVec 2} {k : Kind} (h : bsrKind fmt = some k) :
    k = .shortBsr ∨ k = .longBsr ∨ k = .truncBsr := by
  unfold bsrKind at h
  split_ifs at h <;> cases h <;> simp

theorem settableSize_ceCommand {i : Instr} {kind : Kind} {payload : List Byte}
    (sets : ceCommand i = some (kind, payload)) : settableSize kind = some payload.length := by
  cases i with
  | setBsr fmt o0 o1 o2 o3 =>
    simp only [ceCommand, Option.map_eq_some_iff, Prod.mk.injEq] at sets
    obtain ⟨k, format, rfl, rfl⟩ := sets
    rcases bsrKind_some format with rfl | rfl | rfl <;> rfl
  | setScell bitmap =>
    simp only [ceCommand, scellForm, Option.some.injEq] at sets
    split at sets <;> cases sets <;> rfl
  | setPhr | setTa | setCrid | setCrnti =>
    cases sets
    rfl
  | _ => cases sets

theorem isCe_of_settableSize {k : Kind} {n : Nat} (h : settableSize k = some n) : k.isCe = true := by
  cases k with
  | shortBsr | longBsr | truncBsr | phr | crnti | crid | ta | scell1 | scell4 => rfl
  | _ => cases h

theorem size_of_settableSize {r : LcidRow} (size : r.sizeOk = true) {n : Nat} (h : settableSize r.kind = some n) :
    r.size = some n := by
  obtain ⟨lo, hi, kind, sz⟩ := r
  cases kind <;> simp_all [settableSize, LcidRow.sizeOk]

/-- A legal table gives the kind a SET_ CE command encodes the size of its payload. -/
theorem kindRow_size_eq {c : Config} (h : c.ok = true) {i : Instr} {kind : Kind} {payload : List Byte}
    (sets : ceCommand i = some (kind, payload)) {r : LcidRow} (hk : kindRow c kind = some r) :
    r.size = some payload.length := by
  obtain ⟨hr, rfl⟩ := kindRow_some hk
  obtain ⟨_, _, size, _⟩ := Config.row_ok h hr
  exact size_of_settableSize size (settableSize_ceCommand sets)

end Machine
end Sys2Proof
end

section
/-! PROOFS. The transmit ledger (41_container_tx R163, R166, R172): what each populated slot was charged, and what a
change of the slot file above an index leaves of the slots below it. -/

namespace Sys2Proof.Machine

/-! ### Slots after a write -/

theorem slotAt_set_same {s u : State} {k : Nat} {x : Slot} (h : u.slots = s.slots.set k x) (hk : k < s.slots.length) :
    slotAt u k = x := by
  simp [slotAt, h, List.getD, hk]

theorem slotAt_set_other {s u : State} {j k : Nat} {x : Slot} (h : u.slots = s.slots.set k x) (hj : j ≠ k) :
    slotAt u j = slotAt s j := by
  simp [slotAt, h, List.getD, List.getElem?_set_ne hj.symm]

theorem rslotAt_set_same {s u : State} {k : Nat} {x : RSlot} (h : u.rslots = s.rslots.set k x)
    (hk : k < s.rslots.length) : rslotAt u k = x := by
  simp [rslotAt, h, List.getD, hk]

theorem rslotAt_set_other {s u : State} {j k : Nat} {x : RSlot} (h : u.rslots = s.rslots.set k x) (hj : j ≠ k) :
    rslotAt u j = rslotAt s j := by
  simp [rslotAt, h, List.getD, List.getElem?_set_ne hj.symm]

/-! ### The ledger -/

theorem ledgerAt_below {s : State} {k : Nat} (h : k < s.count) :
    ledgerAt s k = ⟨(slotAt s k).remBefore, (slotAt s k).lastBefore, (slotAt s k).fillBefore⟩ := if_pos h

theorem ledgerAt_count (s : State) : ledgerAt s s.count = ⟨s.remLen, s.lastSdu, s.sduFill⟩ :=
  if_neg (Nat.lt_irrefl _)

/-- Slot k is populated, and `growth` the growth of the header before it: the ledgers `b` before and `a` after it differ
by what the slot was charged (41_container_tx R166, 42_control_elements R201). -/
inductive Charge (c : Config) (k : Nat) (x : Slot) (growth : Nat) (b a : Ledger) : Prop where
  | sdu (kind : x.kind = .sdu) (lcid : isSduLcid c x.lcid = true) (len : 1 ≤ x.len ∧ x.len ≤ 32767)
      (off : x.off = b.fill) (rem : a.rem + (x.len + 1 + growth) = b.rem) (last : a.last = some k)
      (fill : a.fill = b.fill + x.len)
  | ce (kind : x.kind.isCe = true) (row : LcidRow) (hasRow : kindRow c x.kind = some row)
      (size : row.size = some x.len) (lcid : row.lcid = x.lcid) (rem : a.rem + (x.len + 1) = b.rem)
      (last : a.last = b.last) (fill : a.fill = b.fill)

/-- Slot k of the build is charged between its two ledgers. -/
def Charged (s : State) (k : Nat) : Prop :=
  Charge s.cfg k (slotAt s k) (growthAt s (ledgerAt s k)) (ledgerAt s k) (ledgerAt s (k + 1))

/-- What `txSlotOk` says: the slot is the last one, EMPTY and charged nothing, or it is charged. -/
theorem txSlotOk_iff (s : State) (k : Nat) :
    txSlotOk s k = true ↔
      ((slotAt s k).kind = .empty ∧ k + 1 = s.count ∧ ledgerAt s k = ledgerAt s (k + 1)) ∨ Charged s k := by
  have noCharge : (slotAt s k).kind = .empty → ¬ Charged s k := by
    rintro empty (⟨kind, _⟩ | ⟨kind, _⟩) <;> simp [empty, Kind.isCe] at kind
  unfold txSlotOk
  dsimp only
  split
  · next empty => simp [empty, noCharge empty, eq_comm (a := ledgerAt s (k + 1))]
  · next notEmpty =>
    simp only [notEmpty, false_and, false_or]
    split
    · next sdu =>
      constructor
      · intro h
        simp only [Bool.and_eq_true, beq_iff_eq, decide_eq_true_eq] at h
        obtain ⟨⟨⟨⟨⟨lcid, len⟩, off⟩, rem⟩, last⟩, fill⟩ := h
        exact .sdu sdu lcid len off rem last fill
      · rintro (⟨_, lcid, len, off, rem, last, fill⟩ | ⟨kind, _⟩)
        · simp [lcid, len, off, rem, last, fill]
        · simp [sdu, Kind.isCe] at kind
    · next notSdu =>
      constructor
      · intro h
        simp only [Bool.and_eq_true, beq_iff_eq] at h
        obtain ⟨⟨⟨⟨kind, row⟩, rem⟩, last⟩, fill⟩ := h
        split at row
        · next r hasRow =>
          simp only [Bool.and_eq_true, beq_iff_eq] at row
          exact .ce kind r hasRow row.1 row.2 rem last fill
        · cases row
      · rintro (⟨kind, _⟩ | ⟨kind, r, hasRow, size, lcid, rem, last, fill⟩)
        · exact absurd kind notSdu
        · simp [kind, hasRow, size, lcid, rem, last, fill]

theorem Charge.kind_ne_empty {c : Config} {k growth : Nat} {x : Slot} {b a : Ledger} (h : Charge c k x growth b a) :
    x.kind ≠ .empty := by
  intro empty
  cases h with
  | sdu kind => simp [empty] at kind
  | ce kind => simp [empty, Kind.isCe] at kind

theorem Charge.rem_le {c : Config} {k growth : Nat} {x : Slot} {b a : Ledger} (h : Charge c k x growth b a) :
    a.rem ≤ b.rem := by
  cases h with
  | sdu _ _ _ _ rem => omega
  | ce _ _ _ _ _ rem => omega

/-! ### What the ledger of a build says at each index -/

/-- `last` is the last SDU slot below k, none if there is no SDU below k (10_state R31). -/
def LastSduBelow (s : State) (k : Nat) (last : Option Nat) : Prop :=
  (last = none ∧ ∀ i < k, (slotAt s i).kind ≠ .sdu) ∨
  (∃ j, last = some j ∧ j < k ∧ (slotAt s j).kind = .sdu ∧ ∀ i, j < i → i < k → (slotAt s i).kind ≠ .sdu)

theorem LastSduBelow.lt {s : State} {j k : Nat} (h : LastSduBelow s k (some j)) : j < k := by
  rcases h with ⟨h, _⟩ | ⟨j', h, lt, _⟩
  · cases h
  · cases h
    exact lt

/-- A slot that is no SDU changes nothing of which SDU is the last. -/
theorem LastSduBelow.succ {s : State} {k : Nat} {last : Option Nat} (h : LastSduBelow s k last)
    (notSdu : (slotAt s k).kind ≠ .sdu) : LastSduBelow s (k + 1) last := by
  have extend : ∀ i, i < k + 1 → (i < k → (slotAt s i).kind ≠ .sdu) → (slotAt s i).kind ≠ .sdu := by
    intro i hi below
    rcases Nat.lt_succ_iff_lt_or_eq.mp hi with lt | rfl
    · exact below lt
    · exact notSdu
  rcases h with ⟨none, below⟩ | ⟨j, some, lt, sdu, after⟩
  · exact .inl ⟨none, fun i hi => extend i hi (below i)⟩
  · exact .inr ⟨j, some, by omega, sdu, fun i hj hi => extend i hi (after i hj)⟩

section
variable {s : State}

/-- The ledger at each index names the last SDU slot below it. -/
theorem TxOk.lastSduBelow (h : TxOk s) (build : building .general s = true) {k : Nat} (hk : k ≤ s.count) :
    LastSduBelow s k (ledgerAt s k).last := by
  obtain ⟨_, start, slots⟩ := h build
  induction k with
  | zero => exact .inl ⟨by rw [start], fun i hi => absurd hi (Nat.not_lt_zero i)⟩
  | succ k ih =>
    have below := ih (by omega)
    rcases (txSlotOk_iff s k).mp (slots k hk) with
      ⟨empty, _, same⟩ | ⟨kind, _, _, _, _, last, _⟩ | ⟨kind, _, _, _, _, _, last, _⟩
    · rw [← same]
      exact below.succ (by simp [empty])
    · exact .inr ⟨k, last, k.lt_succ_self, kind, fun i h1 h2 => absurd h2 (by omega)⟩
    · rw [last]
      exact below.succ fun sdu => by simp [sdu, Kind.isCe] at kind

/-- REM_LEN never grows along a build. -/
theorem TxOk.rem_le_total (h : TxOk s) (build : building .general s = true) {k : Nat} (hk : k ≤ s.count) :
    (ledgerAt s k).rem ≤ s.totalLen := by
  obtain ⟨_, start, slots⟩ := h build
  induction k with
  | zero => rw [start]
  | succ k ih =>
    have before := ih (by omega)
    rcases (txSlotOk_iff s k).mp (slots k hk) with ⟨_, _, same⟩ | charged
    · rwa [← same]
    · exact Nat.le_trans charged.rem_le before

/-- Every slot of a build below an index that is not the last EMPTY one is charged. -/
theorem TxOk.charged (h : TxOk s) (build : building .general s = true) {k : Nat} (hk : k < s.count)
    (notLast : k + 1 = s.count → (slotAt s k).kind ≠ .empty) : Charged s k := by
  obtain ⟨_, _, slots⟩ := h build
  rcases (txSlotOk_iff s k).mp (slots k hk) with ⟨empty, last, _⟩ | charged
  · exact absurd empty (notLast last)
  · exact charged

/-- While the last slot is EMPTY its snapshot is the registers. -/
theorem TxOk.ledger_lastEmpty (h : TxOk s) (build : building .general s = true) (empty : LastEmpty s) :
    ledgerAt s (s.count - 1) = ⟨s.remLen, s.lastSdu, s.sduFill⟩ := by
  obtain ⟨some, kind⟩ := empty
  obtain ⟨_, _, slots⟩ := h build
  have last : s.count - 1 + 1 = s.count := by omega
  rcases (txSlotOk_iff s (s.count - 1)).mp (slots _ (by omega)) with ⟨_, _, same⟩ | charged
  · rw [same, last, ledgerAt_count]
  · exact absurd kind charged.kind_ne_empty

end

/-! ### Changes above an index -/

/-- `u` has the slots of the build `s` below n, and its ledger at n. -/
structure AgreeBelow (n : Nat) (s u : State) : Prop where
  cfg    : u.cfg = s.cfg
  inS    : n ≤ s.count
  inU    : n ≤ u.count
  slots  : ∀ k < n, slotAt u k = slotAt s k
  ledger : ledgerAt u n = ledgerAt s n

theorem AgreeBelow.ledgerAt_eq {n k : Nat} {s u : State} (h : AgreeBelow n s u) (hk : k ≤ n) :
    ledgerAt u k = ledgerAt s k := by
  rcases Nat.lt_or_eq_of_le hk with lt | rfl
  · rw [ledgerAt_below (Nat.lt_of_lt_of_le lt h.inU), ledgerAt_below (Nat.lt_of_lt_of_le lt h.inS), h.slots k lt]
  · exact h.ledger

/-- The growth of a header depends on the slot of the last SDU alone. -/
theorem AgreeBelow.growthAt_eq {n k : Nat} {s u : State} (h : AgreeBelow n s u) (hk : k ≤ n) {b : Ledger}
    (last : LastSduBelow s k b.last) : growthAt u b = growthAt s b := by
  unfold growthAt
  cases hb : b.last with
  | none => rfl
  | some j =>
    have lt := LastSduBelow.lt (hb ▸ last)
    simp only [h.slots j (by omega)]

/-- A slot below n is charged in `u` as it is in the build `s`. -/
theorem AgreeBelow.charged {n k : Nat} {s u : State} (h : AgreeBelow n s u) (tx : TxOk s)
    (build : building .general s = true) (hk : k < n) (charged : Charged s k) : Charged u k := by
  have below := tx.lastSduBelow build (Nat.le_trans (Nat.le_of_lt hk) h.inS)
  unfold Charged
  rw [h.ledgerAt_eq (Nat.le_of_lt hk), h.ledgerAt_eq hk, h.slots k hk, h.cfg,
    h.growthAt_eq (Nat.le_of_lt hk) below]
  exact charged

/-- A state that agrees with a build below n, where every slot below n is populated, is a build again when its slots
from n on are in order. -/
theorem AgreeBelow.txOk {n : Nat} {s u : State} (h : AgreeBelow n s u) (tx : TxOk s)
    (build : building .general s = true) (populated : ∀ k < n, k + 1 = s.count → (slotAt s k).kind ≠ .empty)
    (total : u.totalLen = s.totalLen) (fits : u.count ≤ s.cfg.maxSubpdus)
    (rest : ∀ k, n ≤ k → k < u.count → txSlotOk u k = true) : TxOk u := by
  intro _
  obtain ⟨_, start, _⟩ := tx build
  refine ⟨h.cfg ▸ fits, ?_, fun k hk => ?_⟩
  · rw [h.ledgerAt_eq (Nat.zero_le n), start, total]
  · rcases Nat.lt_or_ge k n with lt | ge
    · exact (txSlotOk_iff u k).mpr (.inr (h.charged tx build lt
        (tx.charged build (Nat.lt_of_lt_of_le lt h.inS) (populated k lt))))
    · exact rest k ge hk

end Sys2Proof.Machine
end

section
/-! PROOFS. The general build keeps its ledger: APPEND, REMOVE_LAST, SET_SDU and the SET_ CE commands
(41_container_tx R163 to R166, 42_control_elements R201). -/

namespace Sys2Proof.Machine

/-- The general build with its slots, its ledger registers, SDUBUF and the source's inputs replaced. -/
def State.withBuild (s : State) (slots : List Slot) (count rem : Nat) (last : Option Nat) (fill : Nat)
    (sdubuf : Memory) (source : List SourceAnswer) (draws : Nat) : State :=
  { s with slots := slots, count := count, remLen := rem, lastSdu := last, sduFill := fill, sdubuf := sdubuf,
           source := source, draws := draws }

/-- Outside RX_PARSED no entry is current and nothing is corrupt. -/
theorem RunInv.noCursor {s : State} (h : RunInv s) (mode : s.mode ≠ .rxParsed) :
    s.iter = 0 ∧ s.cur = none ∧ s.corrupt = false := by
  obtain ⟨_, _, _, cursor, _, corrupt, _⟩ := h
  obtain ⟨iter, cur⟩ := cursor.resolve_right fun c => mode c.1
  exact ⟨iter, cur, by simpa using fun c => mode (corrupt c).1⟩

/-- What a general build keeps of the invariant when only its slots and its ledger change. -/
theorem RunInv.withBuild {s : State} (h : RunInv s) (build : GeneralBuild s) {slots : List Slot} {count rem : Nat}
    {last : Option Nat} {fill : Nat} {sdubuf : Memory} {source : List SourceAnswer} {draws : Nat}
    (file : slots.length = s.slots.length) (buffer : BufferOk s.cfg sdubuf) (inside : rem ≤ s.totalLen)
    (tx : TxOk (s.withBuild slots count rem last fill sdubuf source draws)) :
    RunInv (s.withBuild slots count rem last fill sdubuf source draws) := by
  obtain ⟨ctype, mode⟩ := build
  obtain ⟨iter, cur, clean⟩ := h.noCursor (by simp [mode])
  obtain ⟨⟨ok, files, rfiles⟩, ⟨txbuf, rxbuf, _⟩, ⟨total, _, _, rcount, rbits⟩, _, ⟨general, _, bi⟩, _, assembly, _⟩ :=
    h
  obtain ⟨fits, _⟩ := tx (by simp [State.withBuild, building, ctype, mode])
  refine ⟨⟨ok, file.trans files, rfiles⟩, ⟨txbuf, rxbuf, buffer⟩,
    ⟨total, inside, Nat.le_add_right_of_le fits, rcount, rbits⟩, .inl ⟨iter, cur⟩, ⟨general, ?_, bi⟩, ?_, assembly, tx, ?_, ?_, ?_⟩
  · intro rar
    simp [State.withBuild, ctype] at rar
  · intro corrupt
    simp [State.withBuild, clean] at corrupt
  all_goals
    intro other
    simp [State.withBuild, building, parsed, ctype, mode] at other

section
variable {s : State}

/-- APPEND: the new slot is EMPTY, with the registers as its snapshot. -/
theorem RunInv.append (h : RunInv s) (build : GeneralBuild s) (populated : ¬ LastEmpty s)
    (room : s.count ≠ s.cfg.maxSubpdus) :
    RunInv { s.setSlot s.count (freshSlot s) with count := s.count + 1 } := by
  have building := (building_general s).mpr build
  have ⟨⟨_, files, _⟩, ⟨_, _, sdubuf⟩, ⟨_, inside, _⟩, _, _, _, _, tx, _⟩ := h
  obtain ⟨fits, _⟩ := tx building
  let u := s.withBuild (s.slots.set s.count (freshSlot s)) (s.count + 1) s.remLen s.lastSdu s.sduFill s.sdubuf s.source
    s.draws
  have fresh : slotAt u s.count = freshSlot s := slotAt_set_same rfl (by omega)
  have snapshot : ledgerAt u s.count = ⟨s.remLen, s.lastSdu, s.sduFill⟩ := by
    rw [ledgerAt_below (show s.count < s.count + 1 by omega), fresh]
    rfl
  have agree : AgreeBelow s.count s u :=
    ⟨rfl, Nat.le_refl _, Nat.le_succ _, fun k hk => slotAt_set_other rfl (Nat.ne_of_lt hk),
     snapshot.trans (ledgerAt_count s).symm⟩
  refine h.withBuild build (by simp) sdubuf inside (agree.txOk tx building ?_ rfl ?_ ?_)
  · intro k hk last empty
    obtain rfl : k = s.count - 1 := by omega
    exact populated ⟨by omega, empty⟩
  · exact Nat.succ_le_of_lt (Nat.lt_of_le_of_ne fits room)
  · intro k ge lt
    obtain rfl : k = s.count := Nat.le_antisymm (Nat.le_of_lt_succ lt) ge
    exact (txSlotOk_iff u _).mpr (.inl ⟨by rw [fresh]; rfl, rfl, snapshot.trans (ledgerAt_count u).symm⟩)

/-- REMOVE_LAST: the registers become the snapshot of the slot freed. -/
theorem RunInv.removeLast (h : RunInv s) (build : GeneralBuild s) (nonempty : s.count ≠ 0) :
    RunInv { s with remLen := (slotAt s (s.count - 1)).remBefore, lastSdu := (slotAt s (s.count - 1)).lastBefore,
                    sduFill := (slotAt s (s.count - 1)).fillBefore, count := s.count - 1 } := by
  have building := (building_general s).mpr build
  have ⟨_, ⟨_, _, sdubuf⟩, _, _, _, _, _, tx, _⟩ := h
  obtain ⟨fits, _⟩ := tx building
  let u := s.withBuild s.slots (s.count - 1) (slotAt s (s.count - 1)).remBefore (slotAt s (s.count - 1)).lastBefore
    (slotAt s (s.count - 1)).fillBefore s.sdubuf s.source s.draws
  have snapshot := ledgerAt_below (s := s) (k := s.count - 1) (by omega)
  have agree : AgreeBelow (s.count - 1) s u :=
    ⟨rfl, Nat.sub_le _ _, Nat.le_refl _, fun _ _ => rfl, (ledgerAt_count u).trans snapshot.symm⟩
  have inside := tx.rem_le_total building (k := s.count - 1) (Nat.sub_le _ _)
  rw [snapshot] at inside
  refine h.withBuild build rfl sdubuf inside (agree.txOk tx building ?_ rfl ?_ ?_)
  · intro k hk last
    omega
  · exact Nat.le_trans (Nat.sub_le _ _) fits
  · intro k ge lt
    exact absurd lt (Nat.not_lt_of_le ge)

/-- Populating the last, EMPTY slot: the slot keeps its snapshot, and what REM_LEN, LAST_SDU and SDU_FILL become is what
the slot is charged. -/
theorem RunInv.populate (h : RunInv s) (build : GeneralBuild s) (empty : LastEmpty s) {x : Slot} {rem : Nat}
    {last : Option Nat} {fill : Nat} {sdubuf : Memory} {source : List SourceAnswer} {draws : Nat}
    (kept : x.remBefore = (slotAt s (s.count - 1)).remBefore ∧ x.lastBefore = (slotAt s (s.count - 1)).lastBefore ∧
      x.fillBefore = (slotAt s (s.count - 1)).fillBefore)
    (buffer : BufferOk s.cfg sdubuf)
    (charge : Charge s.cfg (s.count - 1) x (headerGrowth s) ⟨s.remLen, s.lastSdu, s.sduFill⟩ ⟨rem, last, fill⟩) :
    RunInv (s.withBuild (s.slots.set (s.count - 1) x) s.count rem last fill sdubuf source draws) := by
  have building := (building_general s).mpr build
  have ⟨⟨_, files, _⟩, _, ⟨_, inside, _⟩, _, _, _, _, tx, _⟩ := h
  obtain ⟨fits, _⟩ := tx building
  have ⟨nonempty, _⟩ := empty
  let u := s.withBuild (s.slots.set (s.count - 1) x) s.count rem last fill sdubuf source draws
  have filled : slotAt u (s.count - 1) = x := slotAt_set_same rfl (by omega)
  have before := tx.ledger_lastEmpty building empty
  have snapshot : ledgerAt u (s.count - 1) = ledgerAt s (s.count - 1) := by
    obtain ⟨hr, hl, hf⟩ := kept
    have lt : s.count - 1 < s.count := Nat.sub_one_lt_of_lt nonempty
    rw [ledgerAt_below (s := u) lt, ledgerAt_below (s := s) lt, filled, hr, hl, hf]
  have agree : AgreeBelow (s.count - 1) s u :=
    ⟨rfl, Nat.sub_le _ _, Nat.sub_le _ _, fun k hk => slotAt_set_other rfl (Nat.ne_of_lt hk), snapshot⟩
  have charged : Charged u (s.count - 1) := by
    have growth := agree.growthAt_eq (Nat.le_refl _) (tx.lastSduBelow building (Nat.sub_le s.count 1))
    have after : ledgerAt u (s.count - 1 + 1) = ⟨rem, last, fill⟩ := by
      rw [Nat.sub_add_cancel nonempty]
      exact ledgerAt_count u
    unfold Charged
    rw [after, filled, snapshot, growth, before]
    exact charge
  refine h.withBuild build (by simp) buffer (Nat.le_trans charge.rem_le inside) (agree.txOk tx building ?_ rfl fits ?_)
  · intro k hk last
    omega
  · intro k ge lt
    obtain rfl : k = s.count - 1 := Nat.le_antisymm (Nat.le_sub_one_of_lt lt) ge
    exact (txSlotOk_iff u _).mpr (.inr charged)

/-- SET_SDU with n bytes staged. -/
theorem RunInv.withSdu (h : RunInv s) (build : GeneralBuild s) (empty : LastEmpty s) {lcid : BitVec 5} {req : Word}
    {d : List Byte} (isSdu : isSduLcid s.cfg lcid = true) (nonempty : 1 ≤ d.length)
    (asked : d.length ≤ sduRequest req s) (fits : s.sduFill + d.length ≤ s.cfg.maxTbBytes) (source : List SourceAnswer) (draws : Nat) :
    RunInv (s.withSdu lcid d.length (s.sdubuf.writeN s.sduFill d) source draws) := by
  have ⟨_, ⟨_, _, wf, below⟩, _⟩ := h
  obtain ⟨len, room⟩ : d.length ≤ 32767 ∧ d.length + 1 + headerGrowth s ≤ s.remLen := by
    simp only [sduRequest, sduRoom] at asked
    omega
  exact h.populate build empty ⟨rfl, rfl, rfl⟩
    ⟨Memory.wf_writeN _ _ _ wf, Memory.below_writeN _ _ _ _ below (.inr fits)⟩
    (.sdu rfl isSdu ⟨nonempty, len⟩ rfl (Nat.sub_add_cancel room) rfl rfl)

/-- A SET_ CE command that reserves its control element. -/
theorem RunInv.withCe (h : RunInv s) (build : GeneralBuild s) (empty : LastEmpty s) {i : Instr} {kind : Kind}
    {payload : List Byte} {row : LcidRow} (sets : ceCommand i = some (kind, payload))
    (hasRow : kindRow s.cfg kind = some row) (room : row.size.getD 0 + 1 ≤ s.remLen) :
    RunInv (s.withCe row kind payload) := by
  have ⟨⟨ok, _⟩, ⟨_, _, sdubuf⟩, _⟩ := h
  have size := kindRow_size_eq ok sets hasRow
  exact h.populate build empty ⟨rfl, rfl, rfl⟩ sdubuf
    (.ce (isCe_of_settableSize (settableSize_ceCommand sets)) row hasRow (by simp [size]) rfl
      (Nat.sub_add_cancel room) rfl rfl)

end

end Sys2Proof.Machine
end

section
/-! PROOFS. What the parses find and commit (43_container_rx R241 to R247, 44_rar R281). -/

namespace Sys2Proof.Machine

/-! ### The subheader walk -/

/-- An entry the walk accepts: its class is its LCID's and not RESERVED, and a fixed-size CE has its size
(43_container_rx R241, R242, R244). -/
def Entry.Accepted (c : Config) (e : Entry) : Prop :=
  e.cls = classOf c e.lcid ∧ e.cls ≠ .reserved ∧ ∀ k n, e.cls = .fixed k n → e.len = n

theorem nonFinalLength_some {cls : LcidClass} {rest rest' : List Byte} {len h : Nat}
    (found : nonFinalLength cls rest = some (len, h, rest')) : cls ≠ .reserved ∧ ∀ k n, cls = .fixed k n → len = n := by
  cases cls with
  | fixed kind size =>
    cases found
    exact ⟨nofun, fun k n eq => by cases eq; rfl⟩
  | reserved => cases found
  | sdu | var | pad => exact ⟨nofun, nofun⟩

theorem finalLength_some {cls : LcidClass} {total hlen sum len : Nat}
    (found : finalLength cls total hlen sum = some len) :
    cls ≠ .reserved ∧ (∀ k n, cls = .fixed k n → len = n) ∧ hlen + sum + len = total := by
  cases cls with
  | fixed kind size =>
    obtain ⟨sums, rfl⟩ : hlen + sum + size = total ∧ size = len := by simpa [finalLength] using found
    exact ⟨nofun, fun k n eq => by cases eq; rfl, sums⟩
  | reserved => cases found
  | sdu | var | pad =>
    obtain ⟨fits, rfl⟩ : hlen + sum ≤ total ∧ total - hlen - sum = len := by simpa [finalLength] using found
    exact ⟨nofun, nofun, by omega⟩

/-- What the walk finds: no more entries than there is room for, each accepted, and lengths that sum to the block's. -/
theorem walkSubheaders_some {c : Config} {total room : Nat} {bytes : List Byte} {pos sum : Nat} {w : Walk}
    (found : walkSubheaders c total room bytes pos sum = some w) :
    w.entries.length ≤ room ∧ (∀ e ∈ w.entries, e.Accepted c) ∧
      w.hlen + sum + (w.entries.map Entry.len).sum = total := by
  induction room generalizing bytes pos sum w with
  | zero => cases bytes <;> cases found
  | succ room ih =>
    cases bytes with
    | nil => cases found
    | cons o rest =>
      simp only [walkSubheaders] at found
      split at found
      · split at found
        · cases found
        · next len h rest' nonFinal =>
          obtain ⟨tail, walked, rfl⟩ := Option.map_eq_some_iff.mp found
          obtain ⟨fits, accepted, sums⟩ := ih walked
          obtain ⟨notReserved, size⟩ := nonFinalLength_some nonFinal
          refine ⟨Nat.succ_le_succ fits, ?_, ?_⟩
          · rintro e (_ | ⟨_, later⟩)
            · exact ⟨rfl, notReserved, size⟩
            · exact accepted e later
          · simp [Walk.push]
            omega
      · split at found
        · cases found
        · next len final =>
          cases found
          obtain ⟨notReserved, size, sums⟩ := finalLength_some final
          refine ⟨Nat.succ_le_succ (Nat.zero_le room), ?_, by simpa using sums⟩
          rintro e (_ | ⟨_, ⟨⟩⟩)
          exact ⟨rfl, notReserved, size⟩

/-- What PARSE finds in a block. -/
theorem parseBlock_some {c : Config} {bytes : List Byte} {w : Walk} (found : parseBlock c bytes = some w) :
    w.entries.length ≤ c.maxSubpdus + 2 ∧ (∀ e ∈ w.entries, e.Accepted c) ∧
      w.hlen + (w.entries.map Entry.len).sum = bytes.length := by
  unfold parseBlock at found
  split at found
  · next empty =>
    cases found
    exact ⟨Nat.zero_le _, nofun, by simp [empty]⟩
  · exact walkSubheaders_some found

/-! ### The commit of a parse -/

@[simp] theorem commitEntries_length (bytes : List Byte) (es : List Entry) (off : Nat) (old : List Slot) :
    (commitEntries bytes es off old).length = old.length := by
  induction es generalizing off old with
  | nil => rfl
  | cons e es ih =>
    cases old with
    | nil => rfl
    | cons x old => simp [commitEntries, ih]

/-- Slot k of a commit: entry k, its payload behind those of the entries before it; beyond the entries the old slot. -/
theorem commitEntries_getElem? (bytes : List Byte) (es : List Entry) (off : Nat) (old : List Slot) (k : Nat) :
    (commitEntries bytes es off old)[k]? =
      old[k]?.map fun x =>
        match es[k]? with
        | some e => e.slot bytes (off + ((es.take k).map Entry.len).sum) x
        | none => x := by
  induction es generalizing off old k with
  | nil => simp [commitEntries]
  | cons e es ih =>
    cases old with
    | nil => simp [commitEntries]
    | cons x old =>
      cases k with
      | zero => simp [commitEntries]
      | succ k => simp [commitEntries, ih, Nat.add_assoc]

/-- The payloads before entry k and its own are inside the block. -/
theorem sum_take_add_le (es : List Entry) {k : Nat} (hk : k < es.length) :
    ((es.take k).map Entry.len).sum + es[k].len ≤ (es.map Entry.len).sum := by
  calc ((es.take k).map Entry.len).sum + es[k].len
      = ((es.take (k + 1)).map Entry.len).sum := by
        rw [List.take_succ_eq_append_getElem hk, List.map_append, List.sum_append, List.map_singleton,
          List.sum_singleton]
    _ ≤ ((es.take (k + 1)).map Entry.len).sum + ((es.drop (k + 1)).map Entry.len).sum := Nat.le_add_right _ _
    _ = (es.map Entry.len).sum := by rw [← List.sum_append, ← List.map_append, List.take_append_drop]

/-- What `rxSlotOk` says. -/
theorem rxSlotOk_iff (s : State) (x : Slot) :
    rxSlotOk s x = true ↔
      x.kind ≠ .empty ∧ x.kind = (classOf s.cfg x.lcid).kind ∧
        (∀ k n, classOf s.cfg x.lcid = .fixed k n → x.len = n) ∧ x.off + x.len ≤ s.totalLen := by
  unfold rxSlotOk
  cases classOf s.cfg x.lcid <;> simp [and_assoc]

/-- An accepted entry is in order in the slot file of a parsed container. -/
theorem Entry.Accepted.rxSlotOk {s : State} (ok : s.cfg.ok = true) {e : Entry} (accepted : e.Accepted s.cfg)
    {bytes : List Byte} {off : Nat} (x : Slot) (inside : off + e.len ≤ s.totalLen) :
    rxSlotOk s (e.slot bytes off x) = true := by
  obtain ⟨cls, notReserved, size⟩ := accepted
  rw [cls] at notReserved size
  refine (rxSlotOk_iff s _).mpr ⟨?_, congrArg LcidClass.kind cls, size, inside⟩
  exact ne_of_eq_of_ne (congrArg LcidClass.kind cls) (classOf_kind_ne_empty ok notReserved)

/-! ### The RAR walk -/

/-- The RAR walk finds no more grants than MAX_RAR_GRANTS. -/
theorem walkRar_some {maxGrants : Nat} {bytes : List Byte} {pos m : Nat} {h : RarHeads} (room : m ≤ maxGrants)
    (found : walkRar maxGrants bytes pos m = some h) : m + h.rapids.length ≤ maxGrants := by
  induction bytes generalizing pos m h with
  | nil => cases found
  | cons o rest ih =>
    simp only [walkRar] at found
    split_ifs at found with backoff first more full more
    · obtain ⟨tail, walked, rfl⟩ := Option.map_eq_some_iff.mp found
      have tail_fits := ih room walked
      exact tail_fits
    · cases found
      exact room
    · obtain ⟨tail, walked, rfl⟩ := Option.map_eq_some_iff.mp found
      have := ih (by omega) walked
      simp only [List.length_cons]
      omega
    · cases found
      exact Nat.lt_of_le_of_ne room full

theorem parseRar_some {maxGrants : Nat} {bytes : List Byte} {h : RarHeads} (found : parseRar maxGrants bytes = some h) :
    h.rapids.length ≤ maxGrants := by
  unfold parseRar at found
  split at found
  · cases found
    exact Nat.zero_le _
  · split at found
    · cases found
    · next walked =>
      split at found
      · cases found
      · cases found
        simpa using walkRar_some (Nat.zero_le _) walked

@[simp] theorem commitGrants_length (rapids : List (BitVec 6)) (bytes : List Byte) (old : List RSlot) :
    (commitGrants rapids bytes old).length = old.length := by
  induction rapids generalizing bytes old with
  | nil => rfl
  | cons r rs ih =>
    cases old with
    | nil => rfl
    | cons x old => simp [commitGrants, ih]

/-- Every slot a RAR commit fills is populated. -/
theorem commitGrants_populated {rapids : List (BitVec 6)} {bytes : List Byte} {old : List RSlot} {k : Nat}
    (hk : k < rapids.length) (fits : rapids.length ≤ old.length) :
    ((commitGrants rapids bytes old).getD k RSlot.zero).populated = true := by
  induction rapids generalizing bytes old k with
  | nil => cases hk
  | cons r rs ih =>
    cases old with
    | nil => cases fits
    | cons x old =>
      cases k with
      | zero => rfl
      | succ k => exact ih (Nat.lt_of_succ_lt_succ hk) (Nat.le_of_succ_le_succ fits)

end Sys2Proof.Machine
end

section
/-! PROOFS. Every change a command makes keeps the invariant of runs (RunInv): the initialised container, the end of a
build, the parses, the iterators and the RAR build. -/

namespace Sys2Proof.Machine

theorem maxRarGrants_le {c : Config} (h : c.ok = true) : c.maxRarGrants ≤ 255 := by
  simp only [Config.ok, Bool.and_eq_true, decide_eq_true_eq] at h
  obtain ⟨⟨⟨⟨⟨_, _, top⟩, _⟩, _⟩, _⟩, _⟩ := h
  exact top

theorem building_iff (ct : CType) (s : State) : building ct s = true ↔ s.ctype = ct ∧ s.mode = .txBuild := by
  simp [building]

theorem not_building {ct : CType} {s : State} {P : Prop} (h : s.mode ≠ .txBuild) : building ct s = true → P :=
  fun build => absurd ((building_iff ct s).mp build).2 h

theorem parsed_iff (ct : CType) (s : State) : parsed ct s = true ↔ s.ctype = ct ∧ s.mode = .rxParsed := by
  simp [parsed]

section
variable {s : State}

/-! ### What the invariant does not look at -/

theorem RunInv.withEnd (h : RunInv s) (xs : List Word) (c : Status) : RunInv ((s.withResults xs).withCode c) := h

theorem RunInv.withHostq (h : RunInv s) (q : List HostAccess) : RunInv { s with hostq := q } := h

/-- Of SDUBUF the invariant asks only that it be canonical, and nothing of the source's inputs. -/
theorem RunInv.withSdubuf (h : RunInv s) {m : Memory} (buffer : BufferOk s.cfg m) (source : List SourceAnswer)
    (draws : Nat) : RunInv { s with sdubuf := m, source := source, draws := draws } := by
  obtain ⟨files, ⟨txbuf, rxbuf, _⟩, rest⟩ := h
  exact ⟨files, ⟨txbuf, rxbuf, buffer⟩, rest⟩

theorem RunInv.withRxbuf (h : RunInv s) {m : Memory} (buffer : BufferOk s.cfg m) : RunInv { s with rxbuf := m } := by
  obtain ⟨files, ⟨txbuf, _, sdubuf⟩, rest⟩ := h
  exact ⟨files, ⟨txbuf, buffer, sdubuf⟩, rest⟩

/-- Of the command assembly the invariant asks only what AssemblyOk says. -/
theorem RunInv.withAssembly (h : RunInv s) {p : Bool} {w : Word} {l : Nat} (ops : PendOps)
    (assembly : (p = false ∧ l = 0) ∨ (p = true ∧ 1 ≤ l ∧ l ≤ operandWords w)) :
    RunInv { s with pend := p, pendWord0 := w, pendLeft := l, pendOps := ops } := by
  obtain ⟨files, buffers, bounds, cursor, inactive, corrupt, _, rest⟩ := h
  exact ⟨files, buffers, bounds, cursor, inactive, corrupt, assembly, rest⟩

/-! ### Reset and INIT -/

theorem runInv_resetOf {c : Config} (ok : c.ok = true) (d : ResetDraw) : RunInv (State.resetOf c d) := by
  exact ⟨⟨ok, drawnFile_length .., drawnFile_length ..⟩, resetOf_buffersOk c d,
    ⟨Nat.zero_le _, Nat.le_refl _, Nat.zero_le _, Nat.zero_le _, Nat.two_pow_pos 8⟩, .inl ⟨rfl, rfl⟩,
    ⟨fun _ => ⟨rfl, rfl⟩, nofun, fun _ => rfl⟩, nofun, .inl ⟨rfl, rfl⟩, nofun, nofun, nofun, nofun⟩

/-- An INIT command leaves an empty container: a build with all of TOTAL_LEN left, or a block to be parsed. -/
theorem RunInv.initContainer (h : RunInv s) {ct : CType} {mode : Mode} {pad : Bool} {total rem : Nat}
    (fits : total ≤ s.cfg.maxTbBytes)
    (kind : (mode = .txBuild ∧ rem = total) ∨ (mode = .rxReady ∧ rem = 0)) (policy : ct = .rar → pad = false) :
    RunInv (s.initContainer ct mode pad total rem) := by
  obtain ⟨files, buffers, _, _, _, _, assembly, _⟩ := h
  have whole : mode = .txBuild → rem = total := fun build => by
    rcases kind with ⟨_, whole⟩ | ⟨ready, _⟩
    · exact whole
    · simp [ready] at build
  have inside : rem ≤ total := by omega
  refine ⟨files, buffers, ⟨fits, inside, Nat.zero_le _, Nat.zero_le _, Nat.two_pow_pos 8⟩, .inl ⟨rfl, rfl⟩,
    ⟨fun _ => ⟨rfl, rfl⟩, fun rar => ⟨rfl, rfl, rfl, policy rar⟩, fun _ => rfl⟩, nofun, assembly, fun build => ?_,
    fun _ => nofun, fun build => ?_, fun _ => nofun⟩
  · obtain rfl := whole ((building_iff ..).mp build).2
    exact ⟨Nat.zero_le _, rfl, nofun⟩
  · obtain rfl := whole ((building_iff ..).mp build).2
    exact ⟨rfl, nofun⟩

/-! ### The end of a build -/

/-- A serialize leaves TX_BUILD, and the build's parts of the invariant with it. -/
theorem RunInv.leaveBuild (h : RunInv s) (build : s.mode = .txBuild) {mode : Mode}
    (left : mode = .idle ∨ mode = .txDone) {m : Memory} (buffer : BufferOk s.cfg m) : RunInv { s with txbuf := m, mode := mode } := by
  obtain ⟨iter, cur, clean⟩ := h.noCursor (by simp [build])
  obtain ⟨files, ⟨_, rxbuf, sdubuf⟩, bounds, _, inactive, _, assembly, _⟩ := h
  refine ⟨files, ⟨buffer, rxbuf, sdubuf⟩, bounds, .inl ⟨iter, cur⟩, inactive, ?_, assembly, ?_, ?_, ?_, ?_⟩
  · intro corrupt
    simp [clean] at corrupt
  all_goals
    intro other
    obtain rfl | rfl := left <;> simp [building, parsed] at other

/-! ### PARSE and the iterators -/

/-- A successful PARSE commits slots that are in order. -/
theorem RunInv.parsed (h : RunInv s) (receives : receiving .general s = true) {w : Walk}
    (walked : parseBlock s.cfg (s.rxbuf.readN 0 s.totalLen) = some w) :
    RunInv { s with slots := commitEntries (s.rxbuf.readN 0 s.totalLen) w.entries w.hlen s.slots,
                    count := w.entries.length, corrupt := false, mode := .rxParsed, iter := 0, cur := none } := by
  obtain ⟨ctype, _⟩ := (receiving_iff .general s).mp receives
  obtain ⟨⟨ok, files, rfiles⟩, buffers, ⟨total, rem, _, rcount⟩, _, ⟨general, _, bi⟩, _, assembly, _⟩ := h
  obtain ⟨fits, accepted, sums⟩ := parseBlock_some walked
  rw [Memory.readN_length] at sums
  refine ⟨⟨ok, (commitEntries_length ..).trans files, rfiles⟩, buffers, ⟨total, rem, fits, rcount⟩, .inl ⟨rfl, rfl⟩,
    ⟨general, ?_, bi⟩, nofun, assembly, not_building nofun, ?_,
    not_building nofun, ?_⟩
  · intro rar
    simp [ctype] at rar
  · intro _ k hk
    have inFile : k < s.slots.length := Nat.lt_of_lt_of_le hk (files ▸ fits)
    simp only [slotAt, List.getD, commitEntries_getElem?, List.getElem?_eq_getElem hk, List.getElem?_eq_getElem inFile,
      Option.map_some, Option.getD_some]
    have inside := sum_take_add_le w.entries hk
    exact (accepted _ (List.getElem_mem hk)).rxSlotOk ok _ (by omega)
  · intro rar
    simp [Machine.parsed, ctype] at rar

/-- A PARSE of a corrupt block empties the container. -/
theorem RunInv.parseCorrupt (h : RunInv s) (receives : receiving .general s = true) :
    RunInv { s with count := 0, corrupt := true, mode := .rxParsed, iter := 0, cur := none } := by
  obtain ⟨ctype, _⟩ := (receiving_iff .general s).mp receives
  obtain ⟨files, buffers, ⟨total, rem, _, rcount⟩, _, ⟨general, _, bi⟩, _, assembly, _⟩ := h
  refine ⟨files, buffers, ⟨total, rem, Nat.zero_le _, rcount⟩, .inl ⟨rfl, rfl⟩, ⟨general, ?_, bi⟩, ?_, assembly,
    not_building nofun, fun _ => nofun,
    not_building nofun, ?_⟩
  · intro rar
    simp [ctype] at rar
  · intro _
    simp [entryCount, ctype]
  · intro rar
    simp [Machine.parsed, ctype] at rar

/-- ITER_NEXT and RAR_ITER_NEXT: CUR becomes the entry ITER named. -/
theorem RunInv.nextEntry (h : RunInv s) (mode : s.mode = .rxParsed) (more : s.iter < entryCount s) :
    RunInv { s with cur := some s.iter, iter := s.iter + 1 } := by
  obtain ⟨files, buffers, bounds, _, rest⟩ := h
  exact ⟨files, buffers, bounds, .inr ⟨mode, Nat.succ_pos _, more, rfl⟩, rest⟩

/-- A successful RAR_PARSE commits populated slots. -/
theorem RunInv.rarParsed (h : RunInv s) (receives : receiving .rar s = true) {r : RarHeads}
    (walked : parseRar s.cfg.maxRarGrants (s.rxbuf.readN 0 s.totalLen) = some r) :
    RunInv { s with rslots := commitGrants r.rapids ((s.rxbuf.readN 0 s.totalLen).drop r.hlen) s.rslots,
                    rcount := r.rapids.length, hasBi := r.bi.isSome, bi := r.bi.getD 0, corrupt := false,
                    mode := .rxParsed, iter := 0, cur := none } := by
  obtain ⟨ctype, _⟩ := (receiving_iff .rar s).mp receives
  obtain ⟨⟨ok, files, rfiles⟩, buffers, ⟨total, rem, count, _⟩, _, ⟨_, rar, _⟩, _, assembly, _⟩ := h
  have fits := parseRar_some walked
  have grants := maxRarGrants_le ok
  refine ⟨⟨ok, files, (commitGrants_length ..).trans rfiles⟩, buffers, ⟨total, rem, count, fits, by dsimp only; omega⟩,
    .inl ⟨rfl, rfl⟩, ⟨?_, rar, ?_⟩, nofun, assembly, not_building nofun, ?_,
    not_building nofun, ?_⟩
  · intro general
    simp [ctype] at general
  · intro noBackoff
    have none : r.bi = none := by simpa using noBackoff
    change r.bi.getD 0 = 0
    rw [none]
    rfl
  · intro general
    simp [Machine.parsed, ctype] at general
  · intro _ k hk
    exact commitGrants_populated hk (rfiles ▸ fits)

/-- A RAR_PARSE of a corrupt block empties the container. -/
theorem RunInv.rarParseCorrupt (h : RunInv s) (receives : receiving .rar s = true) :
    RunInv { s with rcount := 0, hasBi := false, bi := 0, corrupt := true, mode := .rxParsed, iter := 0,
                    cur := none } := by
  obtain ⟨ctype, _⟩ := (receiving_iff .rar s).mp receives
  obtain ⟨files, buffers, ⟨total, rem, count, _⟩, _, ⟨_, rar, _⟩, _, assembly, _⟩ := h
  refine ⟨files, buffers, ⟨total, rem, count, Nat.zero_le _, Nat.two_pow_pos 8⟩, .inl ⟨rfl, rfl⟩,
    ⟨fun _ => ⟨rfl, rfl⟩, rar, fun _ => rfl⟩, ?_, assembly,
    not_building nofun, ?_, not_building nofun,
    fun _ => nofun⟩
  · intro _
    simp [entryCount, ctype, biCount]
  · intro general
    simp [Machine.parsed, ctype] at general

/-! ### The RAR build -/

/-- The RAR build with its registers and slots replaced. -/
def State.withRar (s : State) (rem : Nat) (hasBi : Bool) (bi : BitVec 4) (rcount : Nat) (rslots : List RSlot) : State :=
  { s with remLen := rem, hasBi := hasBi, bi := bi, rcount := rcount, rslots := rslots }

/-- What a RAR build keeps of the invariant when only its slots and its budget change. -/
theorem RunInv.withRar (h : RunInv s) (build : RarBuild s) {rem : Nat} {hasBi : Bool} {bi : BitVec 4} {rcount : Nat}
    {rslots : List RSlot} (file : rslots.length = s.rslots.length) (backoff : hasBi = false → bi = 0)
    (fits : rcount ≤ s.cfg.maxRarGrants) (tx : RarTxOk (s.withRar rem hasBi bi rcount rslots)) :
    RunInv (s.withRar rem hasBi bi rcount rslots) := by
  obtain ⟨ctype, mode⟩ := build
  obtain ⟨iter, cur, clean⟩ := h.noCursor (by simp [mode])
  obtain ⟨⟨ok, files, rfiles⟩, buffers, ⟨total, _, count, _⟩, _, ⟨_, rar, _⟩, _, assembly, _⟩ := h
  obtain ⟨budget, _⟩ := tx (by simp [State.withRar, building, ctype, mode])
  have grants := maxRarGrants_le ok
  refine ⟨⟨ok, files, file.trans rfiles⟩, buffers, ⟨total, ?_, count, fits, ?_⟩, .inl ⟨iter, cur⟩,
    ⟨?_, rar, backoff⟩, ?_, assembly, ?_, ?_, tx, ?_⟩
  · rw [← budget]
    omega
  · change rcount < 2 ^ 8
    omega
  · intro general
    simp [State.withRar, ctype] at general
  · intro corrupt
    simp [State.withRar, clean] at corrupt
  all_goals
    intro other
    simp [State.withRar, building, Machine.parsed, ctype, mode] at other

/-- The number of populated RAR slots below k. -/
def populatedBelow (s : State) (k : Nat) : Nat := ((s.rslots.take k).filter fun g => g.populated).length

theorem populatedGrants_eq (s : State) : populatedGrants s = populatedBelow s s.rcount := rfl

theorem populatedBelow_succ {k : Nat} (inFile : k < s.rslots.length) :
    populatedBelow s (k + 1) = populatedBelow s k + if (rslotAt s k).populated then 1 else 0 := by
  have slot : rslotAt s k = s.rslots[k] := by simp [rslotAt, inFile]
  rw [populatedBelow, List.take_succ_eq_append_getElem inFile, List.filter_append, List.length_append, slot]
  cases populated : s.rslots[k].populated <;> simp [populated, populatedBelow]

theorem populatedBelow_set {u : State} {k : Nat} {x : RSlot} (h : u.rslots = s.rslots.set k x) :
    populatedBelow u k = populatedBelow s k := by
  rw [populatedBelow, h, List.take_set_of_le (Nat.le_refl k), populatedBelow]

/-- RAR_APPEND: the new slot is unpopulated and costs nothing. -/
theorem RunInv.rarAppend (h : RunInv s) (build : RarBuild s) (populated : ¬ LastUnpopulated s)
    (room : s.rcount ≠ s.cfg.maxRarGrants) :
    RunInv { s.setRSlot s.rcount RSlot.zero with rcount := s.rcount + 1 } := by
  have ⟨⟨_, _, rfiles⟩, _, ⟨_, _, _, rcount, _⟩, _, ⟨_, _, bi⟩, _, _, _, _, tx, _⟩ := h
  obtain ⟨budget, filled⟩ := tx ((building_rar s).mpr build)
  have lt := Nat.lt_of_le_of_ne rcount room
  let u := s.withRar s.remLen s.hasBi s.bi (s.rcount + 1) (s.rslots.set s.rcount RSlot.zero)
  have grants : populatedGrants u = populatedGrants s := by
    calc populatedGrants u
        = populatedBelow u s.rcount + if (rslotAt u s.rcount).populated then 1 else 0 :=
          populatedBelow_succ (by simpa [u, State.withRar, rfiles] using lt)
      _ = populatedBelow u s.rcount := by rw [rslotAt_set_same rfl (rfiles ▸ lt)]; rfl
      _ = populatedGrants s := populatedBelow_set rfl
  have others : ∀ k, k + 1 < u.rcount → (rslotAt u k).populated = true := by
    intro k below
    have le : k + 1 ≤ s.rcount := Nat.le_of_lt_succ below
    rw [show rslotAt u k = rslotAt s k from rslotAt_set_other rfl (Nat.ne_of_lt le)]
    rcases Nat.lt_or_eq_of_le le with lt | last
    · exact filled k (Nat.lt_of_succ_lt lt) lt
    · by_contra unpopulated
      exact populated ⟨by omega, by simpa [← last] using unpopulated⟩
  exact h.withRar build (by simp) bi lt fun _ => ⟨grants ▸ budget, fun k _ => others k⟩

/-- RAR_REMOVE_LAST: what the slot freed was charged comes back. -/
theorem RunInv.rarRemoveLast (h : RunInv s) (build : RarBuild s) (nonempty : s.rcount ≠ 0) :
    RunInv { s with remLen := if (rslotAt s (s.rcount - 1)).populated then s.remLen + 7 else s.remLen,
                    rcount := s.rcount - 1 } := by
  have ⟨⟨_, _, rfiles⟩, _, ⟨_, _, _, rcount, _⟩, _, ⟨_, _, bi⟩, _, _, _, _, tx, _⟩ := h
  obtain ⟨budget, filled⟩ := tx ((building_rar s).mpr build)
  have grants : populatedGrants s =
      populatedBelow s (s.rcount - 1) + if (rslotAt s (s.rcount - 1)).populated then 1 else 0 := by
    rw [← populatedBelow_succ (by omega), Nat.sub_add_cancel (Nat.pos_of_ne_zero nonempty), populatedGrants_eq]
  have freed : (if (rslotAt s (s.rcount - 1)).populated then s.remLen + 7 else s.remLen) + biCount s +
      7 * populatedBelow s (s.rcount - 1) = s.totalLen := by
    rw [grants] at budget
    split at budget
    · next taken =>
      rw [if_pos taken]
      omega
    · next free =>
      rw [if_neg free]
      omega
  refine h.withRar build rfl bi (Nat.le_trans (Nat.sub_le _ _) rcount) fun _ => ⟨freed, fun k _ below => ?_⟩
  have below : k + 1 < s.rcount - 1 := below
  exact filled k (by omega) (by omega)

/-- RAR_SET_BACKOFF: the first backoff indicator costs one byte. -/
theorem RunInv.rarSetBackoff (h : RunInv s) (build : RarBuild s) (bi : BitVec 4)
    (room : s.hasBi = false → 1 ≤ s.remLen) :
    RunInv { s with remLen := if s.hasBi then s.remLen else s.remLen - 1, hasBi := true, bi := bi } := by
  have ⟨_, _, ⟨_, _, _, rcount, _⟩, _, _, _, _, _, _, tx, _⟩ := h
  obtain ⟨budget, filled⟩ := tx ((building_rar s).mpr build)
  have charged : (if s.hasBi then s.remLen else s.remLen - 1) + 1 + 7 * populatedGrants s = s.totalLen := by
    unfold biCount at budget
    split
    · next had => simpa [had] using budget
    · next new =>
      have := room (by simpa using new)
      rw [if_neg new] at budget
      omega
  exact h.withRar build rfl nofun rcount fun _ => ⟨charged, filled⟩

/-- RAR_SET_GRANT: the populated slot costs seven bytes. -/
theorem RunInv.rarSetGrant (h : RunInv s) (build : RarBuild s) (unpopulated : LastUnpopulated s) (room : 7 ≤ s.remLen)
    {g : RSlot} (populated : g.populated = true) :
    RunInv { s.setRSlot (s.rcount - 1) g with remLen := s.remLen - 7 } := by
  have ⟨⟨_, _, rfiles⟩, _, ⟨_, _, _, rcount, _⟩, _, ⟨_, _, bi⟩, _, _, _, _, tx, _⟩ := h
  obtain ⟨budget, filled⟩ := tx ((building_rar s).mpr build)
  obtain ⟨nonempty, empty⟩ := unpopulated
  have inFile : s.rcount - 1 < s.rslots.length := by omega
  let u := s.withRar (s.remLen - 7) s.hasBi s.bi s.rcount (s.rslots.set (s.rcount - 1) g)
  have grants : populatedGrants u = populatedGrants s + 1 := by
    have last : s.rcount - 1 + 1 = s.rcount := Nat.sub_add_cancel nonempty
    calc populatedGrants u
        = populatedBelow u (s.rcount - 1 + 1) := by rw [last]; rfl
      _ = populatedBelow u (s.rcount - 1) + 1 := by
          rw [populatedBelow_succ (by simpa [u, State.withRar] using inFile), rslotAt_set_same rfl inFile,
            if_pos populated]
      _ = populatedBelow s (s.rcount - 1 + 1) + 1 := by
          rw [populatedBelow_succ inFile, empty, populatedBelow_set (s := s) rfl]
          rfl
      _ = populatedGrants s + 1 := by rw [last]; rfl
  have charged : s.remLen - 7 + biCount s + 7 * populatedGrants u = s.totalLen := by omega
  refine h.withRar build (by simp) bi rcount fun _ => ⟨charged, fun k hk below => ?_⟩
  have other : rslotAt u k = rslotAt s k := rslotAt_set_other rfl (Nat.ne_of_lt (Nat.lt_sub_of_add_lt below))
  exact (congrArg RSlot.populated other).trans (filled k hk below)

end

/-! ### Commands, accesses, steps -/

/-- Every change keeps the invariant. -/
theorem Change.runInv {s u : State} {i : Instr} {c : Status} (change : Change s i c u) (h : RunInv s) : RunInv u := by
  have ⟨_, ⟨⟨txWf, txBelow⟩, _, ⟨sduWf, sduBelow⟩⟩, _⟩ := h
  cases change with
  | failed | answered => exact h
  | initTx pad n fits => exact h.initContainer fits (.inl ⟨rfl, rfl⟩) nofun
  | initRx n fits => exact h.initContainer fits (.inr ⟨rfl, rfl⟩) nofun
  | rarInitTx n fits => exact h.initContainer fits (.inl ⟨rfl, rfl⟩) fun _ => rfl
  | rarInitRx n fits => exact h.initContainer fits (.inr ⟨rfl, rfl⟩) fun _ => rfl
  | append build populated room => exact h.append build populated room
  | removeLast build nonempty => exact h.removeLast build nonempty
  | noSdu => exact h.withSdubuf ⟨sduWf, sduBelow⟩ _ _
  | sourceError lcid req read fits =>
    exact h.withSdubuf ⟨Memory.wf_writeN _ _ _ sduWf, Memory.below_writeN _ _ _ _ sduBelow fits⟩ _ _
  | setSdu lcid req build empty isSdu read nonempty asked fits =>
    exact h.withSdu build empty isSdu nonempty asked fits _ _
  | setCe sets build empty hasRow room => exact h.withCe build empty sets hasRow room
  | @serialized _ ct _ _ build _ fits =>
    exact h.leaveBuild ((building_iff ct s).mp build).2 (.inr rfl) ⟨Memory.wf_writeN _ _ _ txWf,
      Memory.below_writeN _ _ _ _ txBelow (by simpa using fits)⟩
  | @notSerialized _ ct _ build =>
    exact h.leaveBuild ((building_iff ct s).mp build).2 (.inl rfl) ⟨txWf, txBelow⟩
  | parsed receives walked => exact h.parsed receives walked
  | parseCorrupt receives => exact h.parseCorrupt receives
  | iterNext parsed more => exact h.nextEntry parsed.2 (by simpa [entryCount, parsed.1] using more)
  | rarAppend build populated room => exact h.rarAppend build populated room
  | rarRemoveLast build nonempty => exact h.rarRemoveLast build nonempty
  | rarSetBackoff bi build room => exact h.rarSetBackoff build bi room
  | rarSetGrant rapid ta grant tc build unpopulated room => exact h.rarSetGrant build unpopulated room rfl
  | rarParsed receives walked => exact h.rarParsed receives walked
  | rarParseCorrupt receives => exact h.rarParseCorrupt receives
  | rarIterNext parsed more => exact h.nextEntry parsed.2 (by simpa [entryCount, parsed.1] using more)

theorem exec_keeps_runInv {s t : State} {i : Instr} (h : RunInv s) (ran : exec i s = .next t) : RunInv t := by
  obtain ⟨c, xs, u, change, _, rfl⟩ := exec_change ran
  exact (change.runInv h).withEnd xs c

theorem runCommand_keeps_runInv {s t : State} {words : List Word} (h : RunInv s)
    (ran : runCommand words s = .next t) : RunInv t := by
  rcases runCommand_cases words s with ⟨i, _, eq⟩ | ⟨why, _, eq⟩
  · exact exec_keeps_runInv h (eq ▸ ran)
  · cases eq.symm.trans ran
    exact h

/-- A write to CMD assembles a command or runs one. -/
theorem writeCmd_keeps_runInv {s t : State} {w : Word} (h : RunInv s) (wrote : writeCmd w s = .next t) : RunInv t := by
  have ⟨_, _, _, _, _, _, assembly, _⟩ := h
  unfold writeCmd at wrote
  split at wrote
  · next pending =>
    have due := (assembly.resolve_left (by simp [pending])).2.2
    simp only [cmdOperand] at wrote
    split at wrote
    · exact runCommand_keeps_runInv (h.withAssembly _ (.inl ⟨rfl, rfl⟩)) wrote
    · cases wrote
      exact h.withAssembly _ (.inr ⟨pending, by omega, by omega⟩)
  · simp only [cmdWord0] at wrote
    split at wrote
    · exact runCommand_keeps_runInv h wrote
    · cases wrote
      exact h.withAssembly _ (.inr ⟨rfl, by omega, Nat.le_refl _⟩)

theorem hostAccess_keeps_runInv {s t : State} {a : HostAccess} (h : RunInv s) (made : hostAccess a s = .next t) :
    RunInv t := by
  have ⟨⟨ok, _⟩, ⟨_, rxbuf, _⟩, _⟩ := h
  cases a with
  | writeReg addr w =>
    simp only [hostAccess] at made
    split at made
    · exact writeCmd_keeps_runInv h made
    · cases made
      exact h
  | readReg addr =>
    cases made
    exact h
  | writeRx i b =>
    obtain ⟨m, written, eq⟩ := orFault_next made
    cases eq
    exact h.withRxbuf (memWrite_bufferOk written rxbuf)
  | readRx i | readTx i =>
    obtain ⟨_, _, eq⟩ := orFault_next made
    cases eq
    exact h
  | reset d =>
    cases made
    exact runInv_resetOf ok d

/-- Settles O14: a step is idle or the host's oldest access, which changes the assembly, RXBUF or, by a command, the
block, and each of a command's changes keeps the invariant. -/
theorem invariantKept : Obligations.InvariantKept := by
  intro s t h stepped
  cases access : s.hostq with
  | nil =>
    cases (step_idle s access).symm.trans stepped
    exact h
  | cons a rest => exact hostAccess_keeps_runInv (h.withHostq rest) ((step_access s a rest access).symm.trans stepped)

end Sys2Proof.Machine
end

section
/-! PROOFS. What the invariant says of the slots of a container (10_state R31, R39). -/

namespace Sys2Proof.Machine

/-- Settles O29: the ledger at each index names the last SDU slot below it, and at COUNT the ledger is the registers. -/
theorem lastSduIsTheLastSduSlot : Obligations.LastSduIsTheLastSduSlot := by
  refine ⟨fun s h build => ?_, fun c d => rfl⟩
  obtain ⟨_, _, _, _, _, _, _, tx, _⟩ := h
  have last := tx.lastSduBelow ((building_general s).mpr build) (Nat.le_refl s.count)
  rwa [ledgerAt_count] at last

/-- R39 of a charged slot: a control element has the LCID of its kind's row, which is no SDU LCID and no padding. -/
theorem Charge.kind_sdu_iff {c : Config} {k growth : Nat} {x : Slot} {b a : Ledger} (ok : c.ok = true)
    (h : Charge c k x growth b a) : (x.kind = .sdu ↔ isSduLcid c x.lcid = true) ∧ x.kind ≠ .padding := by
  cases h with
  | sdu kind lcid => simp [kind, lcid]
  | ce kind row hasRow _ lcid =>
    have own : (classOf c x.lcid).kind = x.kind := by
      rw [← lcid, classOf_kindRow ok hasRow, LcidRow.cls_kind, (kindRow_some hasRow).2]
    refine ⟨by rw [← own, classOf_kind_eq_sdu_iff], fun padding => ?_⟩
    simp [padding, Kind.isCe] at kind

/-- Settles O30: a slot of a build is charged by its kind and LCID, and an entry of a parse has its LCID's kind. -/
theorem populatedSlotKinds : Obligations.PopulatedSlotKinds := by
  rintro s ⟨⟨ok, _⟩, _, _, _, _, _, _, tx, rx, _⟩ (build | parsed) k hk populated
  · have charged := tx.charged ((building_general s).mpr build) hk fun _ => populated
    obtain ⟨sdu, notPadding⟩ := Charge.kind_sdu_iff ok charged
    exact ⟨sdu, fun padding => absurd padding notPadding⟩
  · obtain ⟨_, own, _⟩ := (rxSlotOk_iff s _).mp (rx ((parsed_general s).mpr parsed) k hk)
    exact ⟨by rw [own, classOf_kind_eq_sdu_iff], fun padding => lcid_of_classOf_padding ok (own ▸ padding)⟩

end Sys2Proof.Machine
end

section
/-! PROOFS. The writers of each register (10_state R27 to R42), read off the changes a command can make. -/

namespace Sys2Proof.Machine

/-- A SourceRead takes the next listed answer (20_memory R78; log 5). -/
theorem sourceRead_cons {s : State} {a : SourceAnswer} {rest : List SourceAnswer} (h : s.source = a :: rest)
    (lcid : BitVec 5) (mx : Nat) : sourceRead lcid mx s = (a, { s with source := rest }) := by
  simp [sourceRead, h]

/-- With no answer listed a SourceRead draws a free one (20_memory R78; log 5). -/
theorem sourceRead_nil {s : State} (h : s.source = []) (lcid : BitVec 5) (mx : Nat) :
    sourceRead lcid mx s = (freeSourceAnswer s.draws lcid mx, { s with draws := s.draws + 1 }) := by
  simp [sourceRead, h]

/-- The commit of a parse leaves the transmit-only fields of every slot (43_container_rx R247; log 18). -/
theorem commitEntries_snapshot (bytes : List Byte) (es : List Entry) (off : Nat) (old : List Slot) (k : Nat) :
    ((commitEntries bytes es off old).getD k Slot.zero).remBefore = (old.getD k Slot.zero).remBefore ∧
    ((commitEntries bytes es off old).getD k Slot.zero).lastBefore = (old.getD k Slot.zero).lastBefore ∧
    ((commitEntries bytes es off old).getD k Slot.zero).fillBefore = (old.getD k Slot.zero).fillBefore := by
  simp only [List.getD, commitEntries_getElem?]
  cases old[k]? with
  | none => simp
  | some x => cases es[k]? <;> simp [Entry.slot]

namespace Change

/-! Each register is left alone by every change but those of its writers. -/

section
variable {s u : State} {i : Instr} {c : Status} (h : Change s i c u)
include h

/-- No command changes a parameter, the command assembly or the host's accesses. -/
theorem outside_kept :
    u.cfg = s.cfg ∧ u.hostq = s.hostq ∧ u.pend = s.pend ∧ u.pendWord0 = s.pendWord0 ∧ u.pendLeft = s.pendLeft ∧
      u.pendOps = s.pendOps := by
  cases h <;> exact ⟨rfl, rfl, rfl, rfl, rfl, rfl⟩

theorem source_kept (hs : ¬ ∃ lcid n, i = .setSdu lcid n) : u.source = s.source ∧ u.draws = s.draws := by
  cases h with
  | noSdu | sourceError | setSdu => exact absurd ⟨_, _, rfl⟩ hs
  | _ => exact ⟨rfl, rfl⟩

/-- SET_SDU leaves the source's inputs as they were, or as one SourceRead leaves them. -/
theorem source_of_setSdu {lcid : BitVec 5} {n : Word} (hi : i = .setSdu lcid n) :
    (u.source = s.source ∧ u.draws = s.draws) ∨
      (u.source = (sourceRead lcid (sduRequest n s) s).2.source ∧
        u.draws = (sourceRead lcid (sduRequest n s) s).2.draws) := by
  subst hi
  cases h with
  | noSdu _ _ read | sourceError _ _ read | setSdu _ _ _ _ _ read =>
    rw [read]
    exact .inr ⟨rfl, rfl⟩
  | _ => exact .inl ⟨rfl, rfl⟩

theorem header_kept (hi : ¬ isInit i = true) :
    u.totalLen = s.totalLen ∧ u.ctype = s.ctype ∧ u.padPolicy = s.padPolicy := by
  cases h with
  | initTx | initRx | rarInitTx | rarInitRx => exact absurd rfl hi
  | _ => exact ⟨rfl, rfl, rfl⟩

theorem mode_kept (hi : ¬ isInit i = true) (hl : i ∉ [.serialize, .rarSerialize, .parse, .rarParse]) :
    u.mode = s.mode := by
  cases h with
  | initTx | initRx | rarInitTx | rarInitRx => exact absurd rfl hi
  | parsed | parseCorrupt | rarParsed | rarParseCorrupt => simp at hl
  | serialized serializes | notSerialized serializes => rcases serializes with ⟨_, rfl⟩ | ⟨_, rfl⟩ <;> simp at hl
  | _ => rfl

theorem corrupt_kept (hi : ¬ isInit i = true) (hl : i ∉ [.parse, .rarParse]) : u.corrupt = s.corrupt := by
  cases h with
  | initTx | initRx | rarInitTx | rarInitRx => exact absurd rfl hi
  | parsed | parseCorrupt | rarParsed | rarParseCorrupt => simp at hl
  | _ => rfl

theorem cursor_kept (hi : ¬ isInit i = true) (hl : i ∉ [.parse, .rarParse, .iterNext, .rarIterNext]) :
    u.iter = s.iter ∧ u.cur = s.cur := by
  cases h with
  | initTx | initRx | rarInitTx | rarInitRx => exact absurd rfl hi
  | parsed | parseCorrupt | rarParsed | rarParseCorrupt | iterNext | rarIterNext => simp at hl
  | _ => exact ⟨rfl, rfl⟩

theorem count_kept (hi : ¬ isInit i = true) (hl : i ∉ [.append, .removeLast, .parse]) : u.count = s.count := by
  cases h with
  | initTx | initRx | rarInitTx | rarInitRx => exact absurd rfl hi
  | append | removeLast | parsed | parseCorrupt => simp at hl
  | _ => rfl

theorem lastSdu_kept (hi : ¬ isInit i = true) (hr : i ≠ .removeLast) (hs : ¬ ∃ lcid n, i = .setSdu lcid n) :
    u.lastSdu = s.lastSdu ∧ u.sduFill = s.sduFill := by
  cases h with
  | initTx | initRx | rarInitTx | rarInitRx => exact absurd rfl hi
  | removeLast => exact absurd rfl hr
  | setSdu => exact absurd ⟨_, _, rfl⟩ hs
  | _ => exact ⟨rfl, rfl⟩

theorem remLen_kept (hi : ¬ isInit i = true) (hl : i ∉ [.removeLast, .rarRemoveLast])
    (hs : ¬ ∃ lcid n, i = .setSdu lcid n) (hc : ¬ ceCommand i ≠ none)
    (hg : ¬ ∃ rapid ta grant tc, i = .rarSetGrant rapid ta grant tc) (hb : ¬ ∃ bi, i = .rarSetBackoff bi) :
    u.remLen = s.remLen := by
  cases h with
  | initTx | initRx | rarInitTx | rarInitRx => exact absurd rfl hi
  | removeLast | rarRemoveLast => simp at hl
  | setSdu => exact absurd ⟨_, _, rfl⟩ hs
  | setCe sets => exact absurd (by simp [sets]) hc
  | rarSetGrant => exact absurd ⟨_, _, _, _, rfl⟩ hg
  | rarSetBackoff => exact absurd ⟨_, rfl⟩ hb
  | _ => rfl

theorem slots_kept (hl : i ∉ [.append, .parse]) (hs : ¬ ∃ lcid n, i = .setSdu lcid n) (hc : ¬ ceCommand i ≠ none) :
    u.slots = s.slots := by
  cases h with
  | append | parsed => simp at hl
  | setSdu => exact absurd ⟨_, _, rfl⟩ hs
  | setCe sets => exact absurd (by simp [sets]) hc
  | _ => rfl

theorem rcount_kept (hi : ¬ isInit i = true) (hl : i ∉ [.rarAppend, .rarRemoveLast, .rarParse]) :
    u.rcount = s.rcount := by
  cases h with
  | initTx | initRx | rarInitTx | rarInitRx => exact absurd rfl hi
  | rarAppend | rarRemoveLast | rarParsed | rarParseCorrupt => simp at hl
  | _ => rfl

theorem backoff_kept (hi : ¬ isInit i = true) (hp : i ≠ .rarParse) (hb : ¬ ∃ bi, i = .rarSetBackoff bi) :
    u.hasBi = s.hasBi ∧ u.bi = s.bi := by
  cases h with
  | initTx | initRx | rarInitTx | rarInitRx => exact absurd rfl hi
  | rarParsed | rarParseCorrupt => exact absurd rfl hp
  | rarSetBackoff => exact absurd ⟨_, rfl⟩ hb
  | _ => exact ⟨rfl, rfl⟩

theorem rslots_kept (hl : i ∉ [.rarAppend, .rarParse])
    (hg : ¬ ∃ rapid ta grant tc, i = .rarSetGrant rapid ta grant tc) : u.rslots = s.rslots := by
  cases h with
  | rarAppend | rarParsed => simp at hl
  | rarSetGrant => exact absurd ⟨_, _, _, _, rfl⟩ hg
  | _ => rfl

/-- PARSE leaves the transmit-only fields of every slot. -/
theorem snapshot_kept (hp : i = .parse) (k : Nat) :
    (slotAt u k).remBefore = (slotAt s k).remBefore ∧ (slotAt u k).lastBefore = (slotAt s k).lastBefore ∧
      (slotAt u k).fillBefore = (slotAt s k).fillBefore := by
  subst hp
  cases h with
  | parsed => exact commitEntries_snapshot _ _ _ _ k
  | setCe sets => cases sets
  | _ => exact ⟨rfl, rfl, rfl⟩

end

end Change

/-- Settles O56: a command's next state is one of the changes, whose end writes STATUS.CODE and RESULTs alone. -/
theorem eachRegisterHasItsWriters : Obligations.EachRegisterHasItsWriters := by
  intro i s t ran
  obtain ⟨c, xs, u, h, _, rfl⟩ := exec_change ran
  obtain ⟨cfg, hostq, assembly⟩ := h.outside_kept
  exact ⟨cfg, hostq, assembly, h.source_kept, h.header_kept, h.mode_kept, h.corrupt_kept, h.cursor_kept, h.count_kept,
    h.lastSdu_kept, h.remLen_kept, h.slots_kept, h.rcount_kept, h.backoff_kept, h.rslots_kept,
    fun _ _ => h.source_of_setSdu,
    fun lcid mx => ⟨fun _ _ hs => sourceRead_cons hs lcid mx, fun hs => sourceRead_nil hs lcid mx⟩,
    h.snapshot_kept⟩

end Sys2Proof.Machine
end

section
/-! PROOFS. No command reads STATUS.CODE, CORRUPT or a RESULT register (10_state R44, R45): the answer to a state with
other contents of the three is the answer to the state, but for what the command keeps of them. -/

namespace Sys2Proof.Machine

/-- `s` with other contents of STATUS.CODE, CORRUPT and the RESULT registers. -/
def State.withUnread (s : State) (c : Status) (b : Bool) (r : Results) : State :=
  { s with code := c, corrupt := b, results := r }

/-- What a command that writes the results `xs`, and keeps CORRUPT if `keep`, makes of a next state when CORRUPT and the
RESULT registers held `b` and `r` before. -/
def keepUnread (xs : List Word) (keep : Bool) (b : Bool) (r : Results) (t : State) : State :=
  { t with corrupt := if keep then b else t.corrupt, results := r.write xs }

/-- Whatever STATUS.CODE, CORRUPT and the RESULT registers hold in `s`, `f` does the same to everything else, and the
same to them. -/
def Unread (f : State → Result) (s : State) : Prop :=
  ∃ xs keep, ∀ c b r, f (s.withUnread c b r) = mapNext (keepUnread xs keep b r) (f s)

namespace Unread

/-! ### The shapes of a command -/

section
variable {s : State}

theorem ite {p : State → Prop} [∀ s, Decidable (p s)] {f g : State → Result} (hf : Unread f s) (hg : Unread g s)
    (hp : ∀ c b r, p (s.withUnread c b r) ↔ p s := by intro _ _ _; rfl) :
    Unread (fun s => if p s then f s else g s) s := by
  by_cases h : p s
  · obtain ⟨xs, keep, eq⟩ := hf
    exact ⟨xs, keep, fun c b r => by simp only [if_pos h, if_pos ((hp c b r).mpr h), eq]⟩
  · obtain ⟨xs, keep, eq⟩ := hg
    exact ⟨xs, keep, fun c b r => by simp only [if_neg h, if_neg (mt (hp c b r).mp h), eq]⟩

theorem orFault {α : Type} {o : State → Option α} {k : α → State → Result} (hk : ∀ x, o s = some x → Unread (k x) s)
    (ho : ∀ c b r, o (s.withUnread c b r) = o s := by intro _ _ _; rfl) :
    Unread (fun s => Machine.orFault (o s) fun x => k x s) s := by
  cases h : o s with
  | none => exact ⟨[], true, fun c b r => by simp only [ho, h]; rfl⟩
  | some x =>
    obtain ⟨xs, keep, eq⟩ := hk x h
    exact ⟨xs, keep, fun c b r => by simp only [ho, h, orFault_some, eq]⟩

/-- A command that does to `s`, whatever the three registers hold, what another does. -/
theorem congr {f g : State → Result} (hf : Unread f s)
    (same : ∀ c b r, g (s.withUnread c b r) = f (s.withUnread c b r)) :
    Unread g s := by
  obtain ⟨xs, keep, eq⟩ := hf
  have own : g s = f s := same s.code s.corrupt s.results
  exact ⟨xs, keep, fun c b r => by rw [same, eq, own]⟩

/-- A command that only fails, with whatever code. -/
theorem fail (code : Status) : Unread (Machine.fail code) s := ⟨[], true, fun _ _ _ => rfl⟩

/-- A check that fails the command, then the rest of it. -/
theorem check {p : State → Prop} [∀ s, Decidable (p s)] {code : Status} {g : State → Result} (hg : Unread g s)
    (hp : ∀ c b r, p (s.withUnread c b r) ↔ p s := by intro _ _ _; rfl) :
    Unread (fun s => if p s then Machine.fail code s else g s) s :=
  ite (fail code) hg hp

/-- `g` changes the same registers to the same values whatever the three registers hold, and keeps CORRUPT if `keep`. -/
def Same (g : State → State) (keep : Bool) (s : State) : Prop :=
  ∀ c b r, g (s.withUnread c b r) = (g s).withUnread c (if keep then b else (g s).corrupt) r

theorem doneWith {xs : State → List Word} {g : State → State} (keep : Bool)
    (hx : ∀ c b r, xs (s.withUnread c b r) = xs s := by intro _ _ _; rfl) (hg : Same g keep s := by intro _ _ _; rfl) :
    Unread (fun s => Machine.doneWith (xs s) (g s)) s :=
  ⟨xs s, keep, fun c b r => by simp only [hx, hg c b r]; rfl⟩

theorem done {g : State → State} (keep : Bool) (hg : Same g keep s := by intro _ _ _; rfl) :
    Unread (fun s => Machine.done (g s)) s :=
  ⟨[], keep, fun c b r => by simp only [hg c b r]; rfl⟩

theorem failWith {code : Status} {g : State → State} (keep : Bool) (hg : Same g keep s := by intro _ _ _; rfl) :
    Unread (fun s => Machine.fail code (g s)) s :=
  ⟨[], keep, fun c b r => by simp only [hg c b r]; rfl⟩

end

/-! ### The commands -/

theorem initCommand (ct : CType) (m : Mode) (pad : Bool) (n : Word) (rem : Nat) (s : State) :
    Unread (initCommand ct m pad n rem) s :=
  check <| done false

theorem append (s : State) : Unread execAppend s :=
  check <| check <| check <| doneWith true

theorem removeLast (s : State) : Unread execRemoveLast s :=
  check <| check <| doneWith true

theorem setCe (kind : Kind) (payload : List Byte) (s : State) : Unread (setCe kind payload) s := by
  refine check <| check ?_
  cases row : kindRow s.cfg kind with
  | none => exact (fail .errDirection).congr fun c b r => by simp only [State.withUnread, row]
  | some row' =>
    have reserve : Unread (reserveCe row' kind payload) s := check <| done true
    exact reserve.congr fun c b r => by simp only [State.withUnread, row]

theorem setBsr (fmt : BitVec 2) (o0 o1 o2 o3 : Word) (s : State) : Unread (execSetBsr fmt o0 o1 o2 o3) s := by
  unfold execSetBsr
  split
  · exact fail .errIllegal
  · exact setCe _ _ s

/-- A GET_ command reads the entry CUR names. -/
theorem withEntry {decodes : Kind → Bool} {k : Slot → State → Result} (s : State) (hk : ∀ e, Unread (k e) s) :
    Unread (fun s => withEntry decodes s fun e => k e s) s := by
  refine check ?_
  cases cur : s.cur with
  | none => exact (fail .errState).congr fun c b r => by simp only [State.withUnread, cur]
  | some j =>
    have entry : Unread (fun s => if decodes (slotAt s j).kind then k (slotAt s j) s else Machine.fail .errState s) s :=
      ite ((hk (slotAt s j)).congr fun _ _ _ => rfl) (fail .errState)
    exact entry.congr fun c b r => by simp only [State.withUnread, cur]

theorem getSdu (s : State) : Unread execGetSdu s := by
  refine check ?_
  cases cur : s.cur with
  | none => exact (fail .errState).congr fun c b r => by simp only [State.withUnread, cur]
  | some j =>
    have entry : Unread (fun s => if (slotAt s j).kind = .sdu then
        Machine.doneWith [word (slotAt s j).off, word (slotAt s j).len, (slotAt s j).lcid.setWidth 32] s
        else Machine.fail .errState s) s := ite (doneWith true) (fail .errState)
    exact entry.congr fun c b r => by simp only [State.withUnread, cur]

theorem getBsr (s : State) : Unread execGetBsr s :=
  withEntry s fun _ => doneWith true

theorem getPhr (s : State) : Unread execGetPhr s :=
  withEntry s fun _ => doneWith true

theorem getTa (s : State) : Unread execGetTa s :=
  withEntry s fun _ => doneWith true

theorem getCrid (s : State) : Unread execGetCrid s :=
  withEntry s fun _ => doneWith true

theorem getCrnti (s : State) : Unread execGetCrnti s :=
  withEntry s fun _ => doneWith true

theorem getScell (s : State) : Unread execGetScell s :=
  withEntry s fun _ => ite (doneWith true) (doneWith true)

theorem getMchSched (k : BitVec 16) (s : State) : Unread (execGetMchSched k) s :=
  withEntry s fun _ => check <| orFault fun _ _ => doneWith true

/-- The commit of a block and results that the three registers do not enter. -/
theorem commit {out : State → List Byte} {xs : State → List Word} {s : State}
    (ho : ∀ c b r, out (s.withUnread c b r) = out s := by intro _ _ _; rfl)
    (hx : ∀ c b r, xs (s.withUnread c b r) = xs s := by intro _ _ _; rfl) :
    Unread (fun s => Machine.commitBlock (out s) (xs s) s) s := by
  have block : Unread (Machine.commitBlock (out s) (xs s)) s := ite (failWith true) <| orFault fun _ _ => doneWith true
  exact block.congr fun c b r => by simp only [ho, hx]

theorem serialize (s : State) : Unread execSerialize s :=
  check <| check <| orFault fun _ _ => commit

theorem rarSerialize (s : State) : Unread execRarSerialize s :=
  check <| check <| check commit

theorem parse (s : State) : Unread execParse s := by
  refine check <| orFault fun bytes _ => ?_
  cases walked : parseBlock s.cfg bytes with
  | none =>
    have corrupt : Unread parseCorrupt s := failWith false
    exact corrupt.congr fun c b r => by simp only [State.withUnread, walked]
  | some w =>
    have commit : Unread (parseCommit bytes w) s := doneWith false
    exact commit.congr fun c b r => by simp only [State.withUnread, walked]

theorem iterNext (s : State) : Unread execIterNext s :=
  check <| check <| doneWith true

/-- SET_SDU: the source's answer and the staging go by the other registers alone. -/
theorem takeAnswer (lcid : BitVec 5) (mx : Nat) (a : SourceAnswer) (s : State) : Unread (takeAnswer lcid mx a) s := by
  have failed : Unread (sourceFailed a.residue) s := failWith true
  unfold Machine.takeAnswer
  split
  · exact failed
  · exact ite failed <| ite (doneWith true) <| orFault fun _ _ => doneWith true

theorem setSdu (lcid : BitVec 5) (req : Word) (s : State) : Unread (execSetSdu lcid req) s := by
  refine check <| check <| check <| check <| ite (doneWith true) ?_
  have request : ∀ c b r, sduRequest req (s.withUnread c b r) = sduRequest req s := fun _ _ _ => rfl
  cases source : s.source with
  | cons a rest =>
    obtain ⟨xs, keep, eq⟩ := takeAnswer lcid (sduRequest req s) a { s with source := rest }
    refine ⟨xs, keep, fun c b r => ?_⟩
    simp only [request, sourceRead_cons source, sourceRead_cons (s := s.withUnread c b r) source]
    exact eq c b r
  | nil =>
    obtain ⟨xs, keep, eq⟩ := takeAnswer lcid (sduRequest req s) (freeSourceAnswer s.draws lcid (sduRequest req s))
      { s with draws := s.draws + 1 }
    refine ⟨xs, keep, fun c b r => ?_⟩
    simp only [request, sourceRead_nil source, sourceRead_nil (s := s.withUnread c b r) source]
    exact eq c b r

theorem rarAppend (s : State) : Unread execRarAppend s :=
  check <| check <| check <| doneWith true

theorem rarRemoveLast (s : State) : Unread execRarRemoveLast s :=
  check <| check <| doneWith true

theorem rarSetBackoff (bi : BitVec 4) (s : State) : Unread (execRarSetBackoff bi) s :=
  check <| ite (done true) <| check <| done true

theorem rarSetGrant (rapid : BitVec 6) (ta : BitVec 11) (grant : BitVec 20) (tc : BitVec 16) (s : State) :
    Unread (execRarSetGrant rapid ta grant tc) s :=
  check <| check <| check <| done true

theorem rarParse (s : State) : Unread execRarParse s := by
  refine check <| orFault fun bytes _ => ?_
  cases walked : parseRar s.cfg.maxRarGrants bytes with
  | none =>
    have corrupt : Unread rarCorrupt s := failWith false
    exact corrupt.congr fun c b r => by simp only [State.withUnread, walked]
  | some h =>
    have commit : Unread (rarCommit bytes h) s := doneWith false
    exact commit.congr fun c b r => by simp only [State.withUnread, walked]

theorem rarIterNext (s : State) : Unread execRarIterNext s :=
  check <| check <| doneWith true

/-- The results of RAR_GET_GRANT (44_rar R284). -/
def grantResults (g : RSlot) : List Word :=
  [g.rapid.setWidth 32, g.ta.setWidth 32, g.grant.setWidth 32, g.tc.setWidth 32]

theorem rarGetGrant (s : State) : Unread execRarGetGrant s := by
  refine check ?_
  cases cur : s.cur with
  | none => exact (fail .errState).congr fun c b r => by simp only [State.withUnread, cur]
  | some j =>
    have entry : Unread (fun s => if s.hasBi && j == 0 then Machine.fail .errState s else
        Machine.doneWith (grantResults (rslotAt s (j - biCount s))) s) s := check <| doneWith true
    exact entry.congr fun c b r => by simp only [State.withUnread, cur]; rfl

theorem rarGetBackoff (s : State) : Unread execRarGetBackoff s :=
  check <| doneWith true

/-- No command reads STATUS.CODE, CORRUPT or a RESULT register. -/
theorem exec (i : Instr) (s : State) : Unread (exec i) s := by
  cases i with
  | initTx | initRx | rarInitTx | rarInitRx => exact initCommand ..
  | append => exact append s
  | removeLast => exact removeLast s
  | serialize => exact serialize s
  | parse => exact parse s
  | iterNext => exact iterNext s
  | setSdu lcid req => exact setSdu lcid req s
  | setBsr fmt o0 o1 o2 o3 => exact setBsr fmt o0 o1 o2 o3 s
  | setPhr | setTa | setCrid | setCrnti | setScell => exact setCe ..
  | getSdu => exact getSdu s
  | getBsr => exact getBsr s
  | getPhr => exact getPhr s
  | getTa => exact getTa s
  | getCrid => exact getCrid s
  | getCrnti => exact getCrnti s
  | getScell => exact getScell s
  | getMchSched k => exact getMchSched k s
  | rarAppend => exact rarAppend s
  | rarRemoveLast => exact rarRemoveLast s
  | rarSetBackoff bi => exact rarSetBackoff bi s
  | rarSetGrant rapid ta grant tc => exact rarSetGrant rapid ta grant tc s
  | rarSerialize => exact rarSerialize s
  | rarParse => exact rarParse s
  | rarIterNext => exact rarIterNext s
  | rarGetGrant => exact rarGetGrant s
  | rarGetBackoff => exact rarGetBackoff s

end Unread

theorem mapNext_mapNext (f g : State → State) (r : Result) :
    mapNext f (mapNext g r) = mapNext (fun t => f (g t)) r := by
  cases r <;> rfl

/-- Settles O58: each clause is the answer to a state with other contents of the three registers, compared with the
answer to the state itself. -/
theorem statusAndResultsAreNotRead : Obligations.StatusAndResultsAreNotRead := by
  intro i s
  obtain ⟨xs, keep, eq⟩ := Unread.exec i s
  have own : exec i s = mapNext (keepUnread xs keep s.corrupt s.results) (exec i s) := eq s.code s.corrupt s.results
  refine ⟨fun c => (eq c s.corrupt s.results).trans own.symm, fun b => ?_, xs, fun r => ?_⟩
  · rw [show exec i { s with corrupt := b } = _ from eq s.code b s.results, own, mapNext_mapNext, mapNext_mapNext,
      mapNext_mapNext]
    rfl
  · rw [show exec i { s with results := r } = _ from eq s.code s.corrupt r, own, mapNext_mapNext, mapNext_mapNext]
    cases exec i s with
    | next t => cases keep <;> rfl
    | fault | refused => rfl

end Sys2Proof.Machine
end

section
/-! PROOFS. Decoding gives an encoded command back (30_encoding R91, R94), and the words of a command written to CMD one
after the other execute it (R90; 10_state R47). -/

namespace Sys2Proof

/-! ### The fields of word 0 -/

@[simp] theorem aField_cmdWord (opc a : BitVec 8) (b : BitVec 16) : aField (cmdWord opc a b) = a := by
  apply BitVec.eq_of_getLsbD_eq
  intro i hi
  simp only [aField, cmdWord, BitVec.getLsbD_extractLsb', BitVec.getLsbD_append]
  have h1 : ¬ (16 + i < 16) := by omega
  have h2 : 16 + i - 16 = i := by omega
  simp [hi, h1, h2]

@[simp] theorem bField_cmdWord (opc a : BitVec 8) (b : BitVec 16) : bField (cmdWord opc a b) = b := by
  apply BitVec.eq_of_getLsbD_eq
  intro i hi
  simp only [bField, cmdWord, BitVec.getLsbD_extractLsb', BitVec.getLsbD_append]
  simp [hi]

/-- A word 0 has no bit of a mask when its A and B have none of the mask's. -/
theorem cmdWord_and_eq_zero (opc : BitVec 8) {a n : BitVec 8} {b k : BitVec 16} (ha : a &&& n = 0) (hb : b &&& k = 0) :
    cmdWord opc a b &&& cmdWord 0 n k = 0 := by
  have fields : cmdWord opc a b &&& cmdWord 0 n k = cmdWord (opc &&& 0) (a &&& n) (b &&& k) :=
    BitVec.and_append.trans (congrArg (· ++ (b &&& k)) BitVec.and_append)
  rw [fields, ha, hb]
  exact congrArg (cmdWord · 0 0) BitVec.and_zero

/-- A field below zero bits has no bit of a mask of those bits. -/
theorem zero_append_and (m n : Nat) (x : BitVec n) : (0#m ++ x) &&& (BitVec.allOnes m ++ 0#n) = 0#(m + n) := by
  simp

theorem extractLsb'_zero_append {m n : Nat} (x : BitVec n) : (0#m ++ x).extractLsb' 0 n = x :=
  BitVec.extractLsb'_append_eq_right

/-! ### Decoding an encoded command -/

/-- Words decode to a command when the opcode has its row, the operand words are as many as the row says, no reserved
bit is set, and the operands are the command's. -/
theorem decode_cmdWord {opc a : BitVec 8} {b : BitVec 16} {ops : List Word} {r : OpRow} {i : Instr}
    (row : opRow opc = some r) (len : ops.length = r.nw)
    (free : reservedBitSet r.rsv (cmdWord opc a b :: ops) = false)
    (operands : operandsOf r.op (cmdWord opc a b) ops = i) (wf : WellFormed i) :
    decode (cmdWord opc a b :: ops) = .ok i := by
  simp only [decode, Laws.EncodedLength.opcField_cmdWord, row, len, ne_eq, not_true, if_false, free, Bool.false_eq_true,
    operands, if_pos wf]

/-- With a mask on word 0 alone, no reserved bit is set when A and B have none. -/
theorem reservedBitSet_word0 (opc : BitVec 8) {a n : BitVec 8} {b k : BitVec 16} (ops : List Word) (ha : a &&& n = 0)
    (hb : b &&& k = 0) : reservedBitSet [cmdWord 0 n k] (cmdWord opc a b :: ops) = false := by
  simp only [reservedBitSet, List.zip_cons_cons, List.zip_nil_right, List.any_cons, List.any_nil,
    cmdWord_and_eq_zero opc ha hb]
  rfl

/-- Decoding the words of a well-formed command gives it back. -/
theorem decode_encode {i : Instr} (wf : WellFormed i) : decode (encode i) = .ok i := by
  cases i with
  | initTx pad n => cases pad <;> rfl
  | initRx | setScell | rarInitTx | rarInitRx => rfl
  | append | removeLast | serialize | parse | iterNext | getSdu | getBsr | getPhr | getTa | getCrid | getCrnti
  | getScell | rarAppend | rarRemoveLast | rarSerialize | rarParse | rarIterNext | rarGetGrant | rarGetBackoff => rfl
  | setSdu lcid req =>
    exact decode_cmdWord rfl rfl (reservedBitSet_word0 (n := 0xE0) (k := 0xFFFF) _ _ (zero_append_and 3 5 lcid) rfl)
      (by simpa [operandsOf] using extractLsb'_zero_append (m := 3) lcid) rfl
  | setBsr fmt o0 o1 o2 o3 =>
    exact decode_cmdWord rfl rfl (reservedBitSet_word0 (n := 0xFC) (k := 0xFFFF) _ _ (zero_append_and 6 2 fmt) rfl)
      (by simpa [operandsOf] using extractLsb'_zero_append (m := 6) fmt) wf
  | setTa ta =>
    exact decode_cmdWord rfl rfl (reservedBitSet_word0 (n := 0xC0) (k := 0xFFFF) _ _ (zero_append_and 2 6 ta) rfl)
      (by simpa [operandsOf] using extractLsb'_zero_append (m := 2) ta) rfl
  | rarSetBackoff bi =>
    exact decode_cmdWord rfl rfl (reservedBitSet_word0 (n := 0xF0) (k := 0xFFFF) _ _ (zero_append_and 4 4 bi) rfl)
      (by simpa [operandsOf] using extractLsb'_zero_append (m := 4) bi) rfl
  | setPhr | setCrnti | getMchSched =>
    exact decode_cmdWord rfl rfl (reservedBitSet_word0 (n := 0xFF) (k := 0) _ _ rfl BitVec.and_zero)
      (by simp [operandsOf]) rfl
  | setCrid crid =>
    refine decode_cmdWord rfl rfl (reservedBitSet_word0 (n := 0xFF) (k := 0) _ _ rfl BitVec.and_zero) ?_ rfl
    have whole : crid.extractLsb' 32 16 ++ crid.extractLsb' 0 32 = crid :=
      BitVec.extractLsb'_append_extractLsb' (w := 16) (len := 32)
    simpa [operandsOf] using whole
  | rarSetGrant rapid ta grant tc =>
    have w0 : cmdWord 0x35 (0#2 ++ rapid) tc &&& 0x00C00000 = 0 :=
      cmdWord_and_eq_zero 0x35 (n := 0xC0) (k := 0) (zero_append_and 2 6 rapid) BitVec.and_zero
    have w1 : ((0#21 ++ ta : Word) &&& 0xFFFFF800) = 0 := zero_append_and 21 11 ta
    have w2 : ((0#12 ++ grant : Word) &&& 0xFFF00000) = 0 := zero_append_and 12 20 grant
    have fields := And.intro (extractLsb'_zero_append (m := 2) rapid)
      (And.intro (extractLsb'_zero_append (m := 21) ta) (extractLsb'_zero_append (m := 12) grant))
    refine decode_cmdWord rfl rfl ?_ (by simpa [operandsOf] using fields) rfl
    simp only [reservedBitSet, List.zip_cons_cons, List.any_cons, w0, w1, w2]
    rfl

namespace Machine

/-! ### Writing a command's words -/

/-- Receiving an operand word appends it to the operand words received. -/
theorem PendOps.take_put (p : PendOps) (w : Word) {j : Nat} (hj : j < 4) :
    (p.put j w).toList.take (j + 1) = p.toList.take j ++ [w] := by
  match j with
  | 0 | 1 | 2 | 3 => rfl

theorem writeCmd_word0_more {s : State} {w : Word} (hp : s.pend = false) (hn : operandWords w ≠ 0) :
    writeCmd w s = .next { s with pend := true, pendWord0 := w, pendLeft := operandWords w } := by
  simp [writeCmd, cmdWord0, hp, hn]

theorem writeCmd_operand_more {s : State} (w : Word) (hp : s.pend = true) (hl : 1 < s.pendLeft) :
    writeCmd w s = .next { s with pendLeft := s.pendLeft - 1,
                                  pendOps := s.pendOps.put (operandWords s.pendWord0 - s.pendLeft) w } := by
  simp [writeCmd, cmdOperand, hp, Nat.not_le_of_lt hl]

/-- The accesses that write these words to CMD. -/
abbrev cmdWrites (ws : List Word) : List HostAccess := ws.map fun w => .writeReg 0 w

theorem run_succ_of_step {s t : State} (h : step s = .next t) (k : Nat) :
    Sys2Proof.core.run (k + 1) s = Sys2Proof.core.run k t := by
  have stepped : Sys2Proof.core.step s = .next t := h
  simp only [Host.Core.run, stepped]

theorem run_one (s : State) : Sys2Proof.core.run 1 s = step s := by
  change _ = Sys2Proof.core.step s
  cases h : Sys2Proof.core.step s <;> simp only [Host.Core.run, h]

/-- With the operand words `got` of a command received and the words `due` written next, as many steps as words are due
execute the command. -/
theorem run_operands {w0 : Word} {i : Instr} {got due : List Word} {rest : List HostAccess} {s : State}
    (decodes : decode (w0 :: (got ++ due)) = .ok i) (nonempty : due ≠ []) (queue : s.hostq = cmdWrites due ++ rest)
    (pend : s.pend = true) (word0 : s.pendWord0 = w0) (left : s.pendLeft = due.length)
    (received : s.pendOps.toList.take got.length = got) :
    ∃ ops, Sys2Proof.core.run due.length s =
      exec i { s with hostq := rest, pend := false, pendLeft := 0, pendOps := ops } := by
  have total := decode_ok_length decodes
  have four := operandWords_le_four w0
  simp only [List.length_append] at total
  induction due generalizing got s with
  | nil => exact absurd rfl nonempty
  | cons w due ih =>
    have index : operandWords s.pendWord0 - s.pendLeft = got.length := by
      simp only [List.length_cons] at left total
      rw [word0]
      omega
    have place : got.length < 4 := by
      simp only [List.length_cons] at total
      omega
    have put := PendOps.take_put s.pendOps w place
    rw [received] at put
    cases due with
    | nil =>
      have last : s.pendLeft = 1 := left
      rw [last] at index
      have count : operandWords s.pendWord0 = got.length + 1 := by rw [word0]; exact total.symm
      refine ⟨s.pendOps.put (operandWords s.pendWord0 - 1) w, (run_one s).trans (step_operand_last queue pend last ?_)⟩
      rwa [index, count, put, word0]
    | cons w' due =>
      have more : 1 < s.pendLeft := by rw [left]; simp
      have stepped := (step_writeCmd queue).trans
        (writeCmd_operand_more (s := { s with hostq := cmdWrites (w' :: due) ++ rest }) w pend more)
      obtain ⟨ops, ran⟩ := ih (got := got ++ [w])
        (s := { s with hostq := cmdWrites (w' :: due) ++ rest, pendLeft := s.pendLeft - 1,
                       pendOps := s.pendOps.put (operandWords s.pendWord0 - s.pendLeft) w })
        (by simpa using decodes) (List.cons_ne_nil _ _) rfl pend word0 (by simp [left]) (by simpa [index] using put)
        (by simpa [Nat.add_assoc, Nat.add_comm, Nat.add_left_comm] using total)
      exact ⟨ops, (run_succ_of_step stepped _).trans ran⟩

/-- Settles O8: the first word executes a command without operand words; any other is due its operand words after it. -/
theorem writtenCommandRuns : Obligations.WrittenCommandRuns := by
  intro i s rest wf pend queue
  have decodes := decode_encode wf
  cases words : encode i with
  | nil => simp [words, decode] at decodes
  | cons w0 ops =>
    rw [words] at decodes queue
    have len := decode_ok_length decodes
    cases ops with
    | nil =>
      have ran := (run_one s).trans (step_word0_last queue pend decodes)
      exact ⟨s.pendWord0, s.pendOps, s.pendLeft, by rw [← pend]; exact ran, .inr rfl⟩
    | cons w1 ops =>
      have stepped := (step_writeCmd queue).trans
        (writeCmd_word0_more (s := { s with hostq := cmdWrites (w1 :: ops) ++ rest }) pend (by rw [← len]; simp))
      obtain ⟨received, ran⟩ := run_operands (got := [])
        (s := { s with hostq := cmdWrites (w1 :: ops) ++ rest, pend := true, pendWord0 := w0,
                       pendLeft := operandWords w0 })
        decodes (List.cons_ne_nil _ _) rfl rfl rfl len.symm rfl
      exact ⟨w0, received, 0, (run_succ_of_step stepped _).trans ran, .inl rfl⟩

/-- Settles O6: the four cases of a write to CMD; no register read looks at the assembly state. -/
theorem commandAssembly : Obligations.CommandAssembly :=
  ⟨fun _ _ => writeCmd_word0_last, fun _ _ => writeCmd_word0_more, fun w _ => writeCmd_operand_more w,
   fun w _ => writeCmd_operand_last w, fun _ _ => ⟨rfl, rfl⟩, fun _ _ _ _ _ _ => rfl⟩

end Machine
end Sys2Proof
end

section
/-! PROOFS. The register map and the host's buffer accesses (10_state R21, R35; 20_memory R72, R77, R82). -/

namespace Sys2Proof.Machine

/-! ### The fields of the STATUS and STATE registers -/

theorem statusWord_fields (s : State) :
    (statusWord s).extractLsb' 0 8 = s.code.toCode ∧ (statusWord s).getLsbD 8 = s.corrupt ∧
      (statusWord s).extractLsb' 9 23 = 0 := by
  unfold statusWord
  cases s.corrupt <;> cases s.code <;> decide

theorem stateWord_fields (s : State) :
    (stateWord s).extractLsb' 0 3 = s.mode.toCode ∧ (stateWord s).extractLsb' 3 1 = s.ctype.toBit ∧
      (stateWord s).getLsbD 4 = s.hasBi ∧ (stateWord s).getLsbD 5 = s.padPolicy ∧
      (stateWord s).extractLsb' 6 2 = dirCode s.cfg.dir ∧ (stateWord s).extractLsb' 8 24 = 0 := by
  unfold stateWord
  have all : ∀ (d : BitVec 2) (p b : Bool) (c : BitVec 1) (m : BitVec 3),
      let w := 0#24 ++ d ++ BitVec.ofBool p ++ BitVec.ofBool b ++ c ++ m
      w.extractLsb' 0 3 = m ∧ w.extractLsb' 3 1 = c ∧ w.getLsbD 4 = b ∧ w.getLsbD 5 = p ∧
        w.extractLsb' 6 2 = d ∧ w.extractLsb' 8 24 = 0 := by decide
  exact all _ _ _ _ _

theorem statusWord_resetOf (c : Config) (d : ResetDraw) : statusWord (State.resetOf c d) = 0 :=
  (by decide : 0#23 ++ BitVec.ofBool false ++ Status.ok.toCode = 0#32)

theorem stateWord_resetOf (c : Config) (d : ResetDraw) :
    stateWord (State.resetOf c d) = (dirCode c.dir).setWidth 32 <<< 6 := by
  have all : ∀ dir : Dir, 0#24 ++ dirCode dir ++ BitVec.ofBool false ++ BitVec.ofBool false ++ CType.general.toBit ++
      Mode.idle.toCode = (dirCode dir).setWidth 32 <<< 6 := by
    intro dir
    cases dir <;> decide
  exact all c.dir

/-! ### Register reads -/

/-- SDU_SPACE of a build is REM_LEN - 1 - grow, signed (10_state R35). -/
theorem sduSpaceReg_build {s : State} (build : GeneralBuild s) : sduSpaceReg s = BitVec.ofInt 32 (sduRoom s) :=
  if_pos ((building_general s).mpr build)

theorem sduSpaceReg_other {s : State} (other : ¬ GeneralBuild s) : sduSpaceReg s = 0 :=
  if_neg (mt (building_general s).mp other)

/-- An address that the map does not list reads 0 (10_state R21; log 20). -/
theorem readRegister_unlisted {s : State} {addr : Word} (h : addr ∉ (registerMap s).map Prod.fst) :
    readRegister s addr = 0 := by
  have unlisted : (registerMap s).lookup addr = none := by
    rw [List.lookup_eq_none_iff]
    intro p hp
    have differ : addr ≠ p.1 := fun eq => h (eq ▸ List.mem_map_of_mem hp)
    simpa using differ
  simp [readRegister, unlisted]

/-- A write to any address but CMD is ignored (10_state R21, R22). -/
theorem hostAccess_writeReg_other {addr : Word} (h : addr ≠ 0) (v : Word) (s : State) :
    hostAccess (.writeReg addr v) s = .next s := if_neg h

/-- Settles O9: the reads are the map's entries one by one, an unlisted address has none, and after reset every entry is
the table's value. -/
theorem registerMapReads : Obligations.RegisterMapReads := by
  refine ⟨fun s => ⟨rfl, statusWord_fields s, stateWord_fields s, rfl, rfl, rfl, sduSpaceReg_build,
    sduSpaceReg_other, ?_, rfl, ?_, rfl, rfl, fun addr h => readRegister_unlisted h, fun addr v h => hostAccess_writeReg_other h v s⟩,
    fun c d => ⟨stateWord_resetOf c d, ?_, rfl, rfl⟩⟩
  · change indexWord s.lastSdu = _
    cases s.lastSdu <;> rfl
  · change indexWord s.cur = _
    cases s.cur <;> rfl
  · simp only [List.cons_append, List.nil_append, List.forall_mem_cons]
    exact ⟨rfl, statusWord_resetOf c d, rfl, rfl, rfl, rfl, rfl, rfl, rfl, rfl, rfl, rfl, rfl, rfl, rfl, rfl, nofun⟩

/-! ### Buffer accesses of the host -/

theorem hostReadRx_eq {s : State} {i : Nat} (h : i < s.cfg.maxTbBytes) : hostReadRx s i = some (s.rxbuf.read i) :=
  if_pos h

/-- A host read inside TXBUF gives some byte (20_memory R72, R82). -/
theorem hostReadTx_some {s : State} {i : Nat} (h : i < s.cfg.maxTbBytes) : ∃ b, hostReadTx s i = some b :=
  ⟨_, if_pos h⟩

/-- A host write of one byte inside RXBUF. -/
theorem hostAccess_writeRx {s : State} {i : Nat} (h : i < s.cfg.maxTbBytes) (b : Byte) :
    hostAccess (.writeRx i b) s = .next { s with rxbuf := s.rxbuf.write i b } := by
  have inside : [b].length = 0 ∨ i + [b].length ≤ s.cfg.maxTbBytes := .inr h
  simp only [hostAccess, memWrite_eq s.cfg s.rxbuf i [b] inside, orFault_some]
  rfl

theorem Memory.read_write (m : Memory) (i a : Nat) (b : Byte) (wf : m.wf = true) :
    (m.write i b).read a = if a = i then b else m.read a := by
  split
  · next same => rw [same, m.read_write_same i b wf]
  · next other => exact m.read_write_other i a b other

/-- Settles O10: a read inside its buffer gives a byte and goes on with the state, and a write of RXBUF is one write. -/
theorem hostAccessesChangeOnlyTheirTarget : Obligations.HostAccessesChangeOnlyTheirTarget := by
  refine fun s => ⟨fun _ => rfl, fun i h => ?_, fun i b h canonical => ?_⟩
  · obtain ⟨b, tx⟩ := hostReadTx_some h
    have rx := hostReadRx_eq h
    exact ⟨by simp only [hostAccess, tx, orFault_some], by simp only [hostAccess, rx, orFault_some],
      hostReadTx_eq s i h, ⟨b, tx⟩, rx⟩
  · exact ⟨_, hostAccess_writeRx h b, fun a => s.rxbuf.read_write i a b canonical.1⟩

end Sys2Proof.Machine
end

section
/-! PROOFS. An access to a buffer outside it stops with the fault bufferRange (20_memory R71; log 7): the buffer
operations, the host's accesses and the commands that read or write a buffer. -/

namespace Sys2Proof.Machine

/-! ### The buffer operations -/

theorem memRead_none {c : Config} {a n : Nat} (nonempty : n ≠ 0) (beyond : c.maxTbBytes < a + n) (m : Memory) :
    memRead c m a n = none := by
  have outside : ¬ inBuffer c a n = true := mt (inBuffer_iff c a n).mp (by omega)
  simp [memRead, outside]

theorem memWrite_none {c : Config} {a : Nat} {bytes : List Byte} (nonempty : bytes.length ≠ 0)
    (beyond : c.maxTbBytes < a + bytes.length) (m : Memory) : memWrite c m a bytes = none := by
  have outside : ¬ inBuffer c a bytes.length = true := mt (inBuffer_iff c a bytes.length).mp (by omega)
  simp [memWrite, outside]

/-- The staged payloads of slots that lie inside SDUBUF. -/
theorem sduPayloads_eq {c : Config} {xs : List Slot} (m : Memory)
    (inside : ∀ x ∈ xs, 0 < x.len → x.off + x.len ≤ c.maxTbBytes) :
    sduPayloads c m xs = some (xs.flatMap fun x => m.readN x.off x.len) := by
  induction xs with
  | nil => rfl
  | cons x xs ih =>
    obtain ⟨first, rest⟩ := List.forall_mem_cons.mp inside
    have read := memRead_eq c m x.off x.len ((Nat.eq_zero_or_pos x.len).imp_right first)
    simp [sduPayloads, read, ih rest]

/-- One slot whose payload leaves SDUBUF is enough for there to be no payloads. -/
theorem sduPayloads_none {c : Config} {xs : List Slot} (m : Memory) {x : Slot} (listed : x ∈ xs)
    (nonempty : 0 < x.len) (beyond : c.maxTbBytes < x.off + x.len) : sduPayloads c m xs = none := by
  induction listed with
  | head xs => simp [sduPayloads, memRead_none (Nat.ne_of_gt nonempty) beyond]
  | tail y _ ih =>
    rw [sduPayloads, ih]
    split <;> trivial

theorem commitBlock_fault {s : State} {out : List Byte} (whole : out.length = s.totalLen)
    (beyond : s.cfg.maxTbBytes < s.totalLen) (results : List Word) :
    commitBlock out results s = .fault .bufferRange := by
  rcases commitBlock_cases out results s with ⟨other, _⟩ | ⟨_, _, _, h⟩ | ⟨_, fits, _⟩
  · exact absurd whole other
  · exact h
  · omega

/-! ### The host's accesses -/

theorem hostAccess_outside {s : State} {i : Nat} (beyond : s.cfg.maxTbBytes ≤ i) (b : Byte) :
    hostAccess (.writeRx i b) s = .fault .bufferRange ∧ hostAccess (.readRx i) s = .fault .bufferRange ∧
      hostAccess (.readTx i) s = .fault .bufferRange := by
  have noByte : ¬ i < s.cfg.maxTbBytes := Nat.not_lt_of_le beyond
  have write := memWrite_none (c := s.cfg) (a := i) (bytes := [b]) (by simp) (Nat.lt_succ_of_le beyond) s.rxbuf
  exact ⟨by simp [hostAccess, write], by simp [hostAccess, hostReadRx, noByte],
    by simp [hostAccess, hostReadTx, noByte]⟩

/-! ### The commands -/

/-- A received block longer than RXBUF cannot be read. -/
theorem memRead_block_none {s : State} (beyond : s.cfg.maxTbBytes < s.totalLen) :
    memRead s.cfg s.rxbuf 0 s.totalLen = none :=
  memRead_none (Nat.ne_of_gt (Nat.zero_lt_of_lt beyond)) ((Nat.zero_add _).symm ▸ beyond) _

theorem parse_fault {s : State} (beyond : s.cfg.maxTbBytes < s.totalLen) (receives : receiving .general s = true) :
    exec .parse s = .fault .bufferRange := by
  simp [exec, execParse, receives, memRead_block_none beyond]

theorem rarParse_fault {s : State} (beyond : s.cfg.maxTbBytes < s.totalLen) (receives : receiving .rar s = true) :
    exec .rarParse s = .fault .bufferRange := by
  simp [exec, execRarParse, receives, memRead_block_none beyond]

theorem not_any_empty {s : State} (populated : AllPopulated s) :
    ¬ ((slotsInUse s).any fun x => x.kind == .empty) = true := by simpa using populated

/-- SERIALIZE of a populated build that lies inside SDUBUF commits the block's bytes (41_container_tx R176 to R178). -/
theorem serialize_staged {s : State} (build : GeneralBuild s) (populated : AllPopulated s) (staged : StagedInside s) :
    exec .serialize s =
      commitBlock (blockBytes s)
        [word s.totalLen, word (headerBytes (subEntries s)).length,
         word (padOnes s + (if multiPad s then 1 else 0)), word (padZeros s)] s := by
  have read := sduPayloads_eq s.sdubuf staged
  simp only [exec, execSerialize, (building_general s).mpr build, if_neg (not_any_empty populated), read,
    orFault_some]
  rfl

theorem serialize_fault {s : State} (build : GeneralBuild s) (populated : AllPopulated s)
    (outside : ¬ StagedInside s ∨ ((blockBytes s).length = s.totalLen ∧ s.cfg.maxTbBytes < s.totalLen)) :
    exec .serialize s = .fault .bufferRange := by
  by_cases staged : StagedInside s
  · obtain ⟨whole, beyond⟩ := outside.resolve_left (absurd staged)
    rw [serialize_staged build populated staged]
    exact commitBlock_fault whole beyond _
  · obtain ⟨x, listed, nonempty, beyond⟩ : ∃ x ∈ sduSlots s, 0 < x.len ∧ s.cfg.maxTbBytes < x.off + x.len := by
      simpa using staged
    have unread := sduPayloads_none s.sdubuf listed nonempty beyond
    simp [exec, execSerialize, (building_general s).mpr build, not_any_empty populated, unread]

theorem rarSerialize_fault {s : State} (build : RarBuild s) (populated : ¬ LastUnpopulated s)
    (content : s.hasBi = true ∨ s.rcount ≠ 0) (beyond : s.cfg.maxTbBytes < s.totalLen)
    (fits : (rarHeaders s).length + (grantPayloads (rslotsInUse s)).length ≤ s.totalLen) :
    exec .rarSerialize s = .fault .bufferRange := by
  have last : ¬ lastRSlotUnpopulated s = true := mt (lastRSlotUnpopulated_iff s).mp populated
  have notBare : ¬ ((!s.hasBi && decide (s.rcount = 0)) = true) := by
    rcases content with bi | grants
    · simp [bi]
    · simp [grants]
  simp only [exec, execRarSerialize, (building_rar s).mpr build, if_neg last, if_neg notBare]
  exact commitBlock_fault (by simp; omega) beyond _

theorem commitSdu_fault {s : State} {d : List Byte} (nonempty : 1 ≤ d.length)
    (beyond : s.cfg.maxTbBytes < s.sduFill + d.length) (lcid : BitVec 5) :
    commitSdu lcid d s = .fault .bufferRange := by
  simp [commitSdu, memWrite_none (Nat.ne_of_gt nonempty) beyond]

/-- SET_SDU whose checks pass and which asks for bytes takes the source's answer (41_container_tx R166). -/
theorem setSdu_takes {s : State} {lcid : BitVec 5} {req : Word} (build : GeneralBuild s) (empty : LastEmpty s)
    (isSdu : isSduLcid s.cfg lcid = true) (room : 1 ≤ sduRoom s) (asks : sduRequest req s ≠ 0) :
    exec (.setSdu lcid req) s =
      takeAnswer lcid (sduRequest req s) (sourceRead lcid (sduRequest req s) s).1
        (sourceRead lcid (sduRequest req s) s).2 := by
  have hasRoom : ¬ sduRoom s < 1 := by omega
  simp [exec, execSetSdu, (building_general s).mpr build, (lastSlotEmpty_iff s).mpr empty, isSdu, hasRoom, asks]

theorem setSdu_fault {s s' : State} {lcid : BitVec 5} {req : Word} {ans : SourceAnswer} {d : List Byte}
    (build : GeneralBuild s) (empty : LastEmpty s) (isSdu : isSduLcid s.cfg lcid = true) (room : 1 ≤ sduRoom s)
    (read : sourceRead lcid (sduRequest req s) s = (ans, s')) (answer : ans.answer = some d) (nonempty : 1 ≤ d.length)
    (asked : d.length ≤ sduRequest req s) (beyond : s.cfg.maxTbBytes < s.sduFill + d.length) :
    exec (.setSdu lcid req) s = .fault .bufferRange := by
  have notLess : ¬ sduRequest req s < d.length := Nat.not_lt_of_le asked
  have notZero : d.length ≠ 0 := Nat.ne_of_gt nonempty
  obtain ⟨source, draws, after⟩ := sourceRead_state lcid (sduRequest req s) s
  rw [setSdu_takes build empty isSdu room (by omega), after, read]
  simp only [takeAnswer, answer, if_neg notLess, if_neg notZero]
  exact commitSdu_fault (s := { s with source := source, draws := draws }) nonempty beyond lcid

/-- A GET_ command whose kind fits the entry CUR names goes on with it. -/
theorem withEntry_current {s : State} {c : Nat} {decodes : Kind → Bool} (current : CurrentEntry s c)
    (fits : decodes (slotAt s c).kind = true) (k : Slot → Result) : withEntry decodes s k = k (slotAt s c) := by
  obtain ⟨parsed, cur⟩ := current
  simp [withEntry, (parsed_general s).mpr parsed, cur, fits]

theorem getMchSched_fault {s : State} {c : Nat} {k : BitVec 16} (current : CurrentEntry s c)
    (kind : (slotAt s c).kind = .mchSched) (entry : k.toNat < (slotAt s c).len / 2)
    (beyond : s.cfg.maxTbBytes < (slotAt s c).off + 2 * k.toNat + 2) :
    exec (.getMchSched k) s = .fault .bufferRange := by
  have listed : ¬ (slotAt s c).len / 2 ≤ k.toNat := Nat.not_le_of_lt entry
  have read := memRead_none (n := 2) (by decide) beyond s.rxbuf
  have meaning : exec (.getMchSched k) s = execGetMchSched k s := rfl
  rw [meaning, execGetMchSched, withEntry_current current (by simp [kind])]
  simp only [if_neg listed, read, orFault_none]

/-- Settles O11: each clause is one access outside its buffer, made after the checks that come before it. -/
theorem accessesOutsideBuffersStop : Obligations.AccessesOutsideBuffersStop :=
  fun _ => ⟨fun _ b beyond => hostAccess_outside beyond b, parse_fault, rarParse_fault, serialize_fault,
    rarSerialize_fault, fun _ _ _ _ _ => setSdu_fault, fun _ _ => getMchSched_fault⟩

end Sys2Proof.Machine
end

section
/-! PROOFS. From a state of a run no command and no step inside the buffers stops (20_memory R71, 60_exceptions R308):
the ledger keeps the staged bytes inside SDUBUF (41_container_tx R172), and a parse its payloads inside the block. -/

namespace Sys2Proof.Machine

/-! ### Where a run's buffer accesses lie -/

/-- What is staged and what is left never grow together: a slot is charged at least the bytes it stages. -/
theorem Charge.fill_add_rem_le {c : Config} {k growth : Nat} {x : Slot} {b a : Ledger} (h : Charge c k x growth b a) :
    a.fill + a.rem ≤ b.fill + b.rem := by
  cases h with
  | sdu _ _ _ _ rem _ fill => omega
  | ce _ _ _ _ _ rem _ fill => omega

/-- The staged bytes and REM_LEN of a build fit in TOTAL_LEN at each index of its ledger. -/
theorem TxOk.fill_add_rem_le {s : State} (h : TxOk s) (build : building .general s = true) {k : Nat}
    (hk : k ≤ s.count) : (ledgerAt s k).fill + (ledgerAt s k).rem ≤ s.totalLen := by
  obtain ⟨_, start, slots⟩ := h build
  induction k with
  | zero => simp [start]
  | succ k ih =>
    have before := ih (by omega)
    rcases (txSlotOk_iff s k).mp (slots k hk) with ⟨_, _, same⟩ | charged
    · rwa [← same]
    · exact Nat.le_trans charged.fill_add_rem_le before

theorem mem_slotsInUse {s : State} {x : Slot} (h : x ∈ slotsInUse s) : ∃ k < s.count, slotAt s k = x := by
  obtain ⟨k, hk, rfl⟩ := List.mem_iff_getElem.mp h
  obtain ⟨inUse, inFile⟩ : k < s.count ∧ k < s.slots.length := by simpa [slotsInUse] using hk
  exact ⟨k, inUse, by simp [slotAt, slotsInUse, List.getD, inFile]⟩

section
variable {s : State} (h : RunInv s)
include h

theorem RunInv.totalLen_le : s.totalLen ≤ s.cfg.maxTbBytes := by
  obtain ⟨_, _, ⟨total, _⟩, _⟩ := h
  exact total

/-- Every SDU of a build is staged below the fill of the ledger after it. -/
theorem RunInv.stagedInside (build : GeneralBuild s) : StagedInside s := by
  intro x listed _
  have ⟨_, _, _, _, _, _, _, tx, _⟩ := h
  have building := (building_general s).mpr build
  obtain ⟨inUse, sdu⟩ : x ∈ slotsInUse s ∧ x.kind = .sdu := by simpa [sduSlots] using listed
  obtain ⟨k, hk, rfl⟩ := mem_slotsInUse inUse
  have total := h.totalLen_le
  have after := tx.fill_add_rem_le building (k := k + 1) hk
  cases tx.charged building hk fun _ => by simp [sdu] with
  | sdu _ _ _ off _ _ fill => omega
  | ce kind => simp [sdu, Kind.isCe] at kind

/-- The bytes SET_SDU asks for fit in SDUBUF at SDU_FILL. -/
theorem RunInv.sduFill_add_request_le (build : GeneralBuild s) (req : Word) :
    s.sduFill + sduRequest req s ≤ s.cfg.maxTbBytes := by
  have ⟨_, _, _, _, _, _, _, tx, _⟩ := h
  have total := h.totalLen_le
  have now := tx.fill_add_rem_le ((building_general s).mpr build) (Nat.le_refl s.count)
  rw [ledgerAt_count] at now
  simp only [sduRequest, sduRoom] at now ⊢
  omega

/-- The entry CUR names lies inside the received block. -/
theorem RunInv.current_inside {c : Nat} (current : CurrentEntry s c) :
    (slotAt s c).off + (slotAt s c).len ≤ s.cfg.maxTbBytes := by
  obtain ⟨parsed, cur⟩ := current
  have total := h.totalLen_le
  obtain ⟨_, _, _, cursor, _, _, _, _, rx, _⟩ := h
  obtain ⟨_, pos, last, named⟩ := cursor.resolve_left (by simp [cur])
  have inUse : c < s.count := by
    have general : s.ctype ≠ .rar := by simp [parsed.1]
    simp only [entryCount, if_neg general, cur, Option.some.injEq] at last named
    omega
  obtain ⟨_, _, _, inside⟩ := (rxSlotOk_iff s _).mp (rx ((parsed_general s).mpr parsed) c inUse)
  omega

end

/-! ### Outcomes that are a next state -/

/-- The outcome is a next state: no fault and no refusal. -/
def GoesOn (r : Result) : Prop := ∃ t, r = .next t

theorem GoesOn.fail (c : Status) (s : State) : GoesOn (fail c s) := ⟨_, rfl⟩

theorem GoesOn.doneWith (xs : List Word) (s : State) : GoesOn (doneWith xs s) := ⟨_, rfl⟩

theorem GoesOn.done (s : State) : GoesOn (done s) := ⟨_, rfl⟩

theorem GoesOn.ite {p : Prop} [Decidable p] {a b : Result} (ha : p → GoesOn a) (hb : ¬ p → GoesOn b) :
    GoesOn (if p then a else b) := by
  split
  · exact ha ‹p›
  · exact hb ‹¬ p›

/-- A check that ends the command when it finds `p`. -/
theorem GoesOn.check {p : Prop} [Decidable p] {c : Status} {s : State} {r : Result} (hr : ¬ p → GoesOn r) :
    GoesOn (if p then Machine.fail c s else r) := .ite (fun _ => .fail c s) hr

/-- A check written `if !b`: it ends the command unless `b`. -/
theorem GoesOn.unless {b : Bool} {c : Status} {s : State} {r : Result} (hr : b = true → GoesOn r) :
    GoesOn (if !b then Machine.fail c s else r) := .check fun h => hr (by simpa using h)

theorem GoesOn.orFault {α : Type} {r : Option α} {x : α} {k : α → Result} (had : r = some x) (hk : GoesOn (k x)) :
    GoesOn (orFault r k) := by
  rwa [had, orFault_some]

theorem GoesOn.initCommand (ct : CType) (m : Mode) (pad : Bool) (n : Word) (r : Nat) (s : State) :
    GoesOn (initCommand ct m pad n r s) := .check fun _ => .done _

theorem GoesOn.setCe (kind : Kind) (payload : List Byte) (s : State) : GoesOn (setCe kind payload s) := by
  rcases setCe_cases kind payload s with ⟨c, _, h⟩ | ⟨row, _, _, _, h⟩
  · exact ⟨_, h⟩
  · rw [h]
    exact .check fun _ => .done _

theorem GoesOn.withEntry {decodes : Kind → Bool} {s : State} {k : Slot → Result}
    (hk : ∀ c, CurrentEntry s c → GoesOn (k (slotAt s c))) : GoesOn (withEntry decodes s k) := by
  rcases withEntry_cases decodes s k with h | ⟨c, parsed, cur, _, h⟩
  · exact ⟨_, h⟩
  · rw [h]
    exact hk c ⟨(parsed_general s).mp parsed, cur⟩

theorem GoesOn.commitBlock {s : State} (inside : s.totalLen ≤ s.cfg.maxTbBytes) (out : List Byte) (xs : List Word) :
    GoesOn (commitBlock out xs s) := by
  rcases commitBlock_cases out xs s with ⟨_, h⟩ | ⟨whole, _, beyond, _⟩ | ⟨_, _, h⟩
  · exact ⟨_, h⟩
  · omega
  · exact ⟨_, h⟩

/-! ### The commands that reach no buffer -/

theorem append_goesOn (s : State) : GoesOn (execAppend s) :=
  .unless fun _ => .check fun _ => .check fun _ => .doneWith _ _

theorem removeLast_goesOn (s : State) : GoesOn (execRemoveLast s) :=
  .unless fun _ => .check fun _ => .doneWith _ _

theorem iterNext_goesOn (s : State) : GoesOn (execIterNext s) :=
  .unless fun _ => .ite (fun _ => .fail .iterEnd s) fun _ => .doneWith _ _

theorem setBsr_goesOn (fmt : BitVec 2) (o0 o1 o2 o3 : Word) (s : State) : GoesOn (execSetBsr fmt o0 o1 o2 o3 s) := by
  unfold execSetBsr
  split
  · exact .fail _ s
  · exact .setCe _ _ s

theorem getSdu_goesOn (s : State) : GoesOn (execGetSdu s) := by
  refine .unless fun _ => ?_
  split
  · exact .fail _ s
  · exact .ite (fun _ => .doneWith _ s) fun _ => .fail _ s

theorem getBsr_goesOn (s : State) : GoesOn (execGetBsr s) := .withEntry fun _ _ => .doneWith _ s

theorem getPhr_goesOn (s : State) : GoesOn (execGetPhr s) := .withEntry fun _ _ => .doneWith _ s

theorem getTa_goesOn (s : State) : GoesOn (execGetTa s) := .withEntry fun _ _ => .doneWith _ s

theorem getCrid_goesOn (s : State) : GoesOn (execGetCrid s) := .withEntry fun _ _ => .doneWith _ s

theorem getCrnti_goesOn (s : State) : GoesOn (execGetCrnti s) := .withEntry fun _ _ => .doneWith _ s

theorem getScell_goesOn (s : State) : GoesOn (execGetScell s) :=
  .withEntry fun _ _ => .ite (fun _ => .doneWith _ s) fun _ => .doneWith _ s

theorem rarAppend_goesOn (s : State) : GoesOn (execRarAppend s) :=
  .unless fun _ => .check fun _ => .check fun _ => .doneWith _ _

theorem rarRemoveLast_goesOn (s : State) : GoesOn (execRarRemoveLast s) :=
  .unless fun _ => .check fun _ => .doneWith _ _

theorem rarSetBackoff_goesOn (bi : BitVec 4) (s : State) : GoesOn (execRarSetBackoff bi s) :=
  .unless fun _ => .ite (fun _ => .done _) fun _ => .check fun _ => .done _

theorem rarSetGrant_goesOn (rapid : BitVec 6) (ta : BitVec 11) (grant : BitVec 20) (tc : BitVec 16) (s : State) :
    GoesOn (execRarSetGrant rapid ta grant tc s) :=
  .unless fun _ => .unless fun _ => .check fun _ => .done _

theorem rarIterNext_goesOn (s : State) : GoesOn (execRarIterNext s) :=
  .unless fun _ => .ite (fun _ => .fail .iterEnd s) fun _ => .doneWith _ _

theorem rarGetGrant_goesOn (s : State) : GoesOn (execRarGetGrant s) := by
  refine .unless fun _ => ?_
  split
  · exact .fail _ s
  · exact .check fun _ => .doneWith _ s

theorem rarGetBackoff_goesOn (s : State) : GoesOn (execRarGetBackoff s) :=
  .check fun _ => .doneWith _ s

/-! ### The commands that reach a buffer -/

section
variable {s : State} (h : RunInv s)
include h

/-- The whole received block can be read. -/
theorem RunInv.memRead_block : memRead s.cfg s.rxbuf 0 s.totalLen = some (s.rxbuf.readN 0 s.totalLen) :=
  memRead_eq _ _ _ _ (.inr ((Nat.zero_add _).symm ▸ h.totalLen_le))

theorem parse_goesOn : GoesOn (execParse s) := by
  refine .unless fun _ => .orFault h.memRead_block ?_
  split
  · exact .fail _ _
  · exact .doneWith _ _

theorem rarParse_goesOn : GoesOn (execRarParse s) := by
  refine .unless fun _ => .orFault h.memRead_block ?_
  split
  · exact .fail _ _
  · exact .doneWith _ _

theorem serialize_goesOn : GoesOn (execSerialize s) :=
  .unless fun build => .check fun _ =>
  .orFault (sduPayloads_eq s.sdubuf (h.stagedInside ((building_general s).mp build))) (.commitBlock h.totalLen_le _ _)

theorem rarSerialize_goesOn : GoesOn (execRarSerialize s) :=
  .unless fun _ => .check fun _ => .check fun _ => .commitBlock h.totalLen_le _ _

/-- What SET_SDU makes of the source's answer to its request. -/
theorem takeAnswer_goesOn (build : GeneralBuild s) (lcid : BitVec 5) (req : Word) (a : SourceAnswer)
    (source : List SourceAnswer) (draws : Nat) :
    GoesOn (takeAnswer lcid (sduRequest req s) a { s with source := source, draws := draws }) := by
  unfold takeAnswer
  split
  · exact .fail _ _
  · next d _ =>
    have room := h.sduFill_add_request_le build req
    refine .ite (fun _ => .fail _ _) fun asked => .ite (fun _ => .doneWith _ _) fun _ => ?_
    have fits : s.sduFill + d.length ≤ s.cfg.maxTbBytes := by omega
    exact .orFault (memWrite_eq _ _ _ _ (.inr fits)) (.doneWith _ _)

theorem setSdu_goesOn (lcid : BitVec 5) (req : Word) : GoesOn (execSetSdu lcid req s) := by
  refine .unless fun build => .unless fun _ => .unless fun _ => .check fun _ =>
    .ite (fun _ => .doneWith _ s) fun _ => ?_
  obtain ⟨source, draws, after⟩ := sourceRead_state lcid (sduRequest req s) s
  have taken := takeAnswer_goesOn h ((building_general s).mp build) lcid req
    (sourceRead lcid (sduRequest req s) s).1 source draws
  rwa [← after] at taken

/-- Entry k of an MCH schedule is two bytes of the current entry's payload (42_control_elements R218). -/
theorem getMchSched_goesOn (k : BitVec 16) : GoesOn (execGetMchSched k s) := by
  refine .withEntry fun c current => .check fun listed => ?_
  have inside := h.current_inside current
  exact .orFault (memRead_eq _ _ _ _ (.inr (by omega))) (.doneWith _ _)

/-- Every command answers a next state. -/
theorem exec_goesOn (i : Instr) : GoesOn (exec i s) := by
  cases i with
  | initTx | initRx | rarInitTx | rarInitRx => exact .initCommand _ _ _ _ _ s
  | append => exact append_goesOn s
  | removeLast => exact removeLast_goesOn s
  | serialize => exact serialize_goesOn h
  | parse => exact parse_goesOn h
  | iterNext => exact iterNext_goesOn s
  | setSdu lcid req => exact setSdu_goesOn h lcid req
  | setBsr fmt o0 o1 o2 o3 => exact setBsr_goesOn fmt o0 o1 o2 o3 s
  | setPhr | setTa | setCrid | setCrnti | setScell => exact .setCe _ _ s
  | getSdu => exact getSdu_goesOn s
  | getBsr => exact getBsr_goesOn s
  | getPhr => exact getPhr_goesOn s
  | getTa => exact getTa_goesOn s
  | getCrid => exact getCrid_goesOn s
  | getCrnti => exact getCrnti_goesOn s
  | getScell => exact getScell_goesOn s
  | getMchSched k => exact getMchSched_goesOn h k
  | rarAppend => exact rarAppend_goesOn s
  | rarRemoveLast => exact rarRemoveLast_goesOn s
  | rarSetBackoff bi => exact rarSetBackoff_goesOn bi s
  | rarSetGrant rapid ta grant tc => exact rarSetGrant_goesOn rapid ta grant tc s
  | rarSerialize => exact rarSerialize_goesOn h
  | rarParse => exact rarParse_goesOn h
  | rarIterNext => exact rarIterNext_goesOn s
  | rarGetGrant => exact rarGetGrant_goesOn s
  | rarGetBackoff => exact rarGetBackoff_goesOn s

/-! ### The host's accesses -/

theorem runCommand_goesOn (words : List Word) : GoesOn (runCommand words s) := by
  rcases runCommand_cases words s with ⟨i, _, eq⟩ | ⟨_, _, eq⟩
  · rw [eq]
    exact exec_goesOn h i
  · exact ⟨_, eq⟩

theorem writeCmd_goesOn (w : Word) : GoesOn (writeCmd w s) :=
  .ite (fun _ => .ite (fun _ => runCommand_goesOn (h.withAssembly _ (.inl ⟨rfl, rfl⟩)) _) fun _ => ⟨_, rfl⟩)
    fun _ => .ite (fun _ => runCommand_goesOn h _) fun _ => ⟨_, rfl⟩

theorem hostAccess_goesOn {a : HostAccess} (inside : hostAccessOk s.cfg a = true) : GoesOn (hostAccess a s) := by
  cases a with
  | writeReg addr w => exact .ite (fun _ => writeCmd_goesOn h w) fun _ => ⟨_, rfl⟩
  | readReg | reset => exact ⟨_, rfl⟩
  | writeRx i b => exact ⟨_, hostAccess_writeRx (of_decide_eq_true inside) b⟩
  | readRx i => exact .orFault (hostReadRx_eq (of_decide_eq_true inside)) ⟨_, rfl⟩
  | readTx i =>
    obtain ⟨b, read⟩ := hostReadTx_some (of_decide_eq_true inside)
    exact .orFault read ⟨_, rfl⟩

end

/-- Settles O15: the invariant keeps every buffer access of a command inside its buffer, and a step is idle or one host
access, which may complete a command. -/
theorem noStopFromInvariant : Obligations.NoStopFromInvariant := by
  refine fun s h => ⟨exec_goesOn h, fun inside => ?_⟩
  cases access : s.hostq with
  | nil => exact ⟨s, step_idle s access⟩
  | cons a rest =>
    rw [step_access s a rest access]
    exact hostAccess_goesOn (h.withHostq rest) (inside a rest access)

end Sys2Proof.Machine
end

section
/-! PROOFS. The buffer bytes a command can change (20_memory R81 to R83), read off the changes a command can make. -/

namespace Sys2Proof.Machine

namespace Change

section
variable {s u : State} {i : Instr} {c : Status} (h : Change s i c u)
include h

theorem rxbuf_kept : u.rxbuf = s.rxbuf := by
  cases h <;> rfl

theorem txbuf_kept (hs : ¬ (i = .serialize ∨ i = .rarSerialize)) : u.txbuf = s.txbuf := by
  cases h with
  | serialized serializes => rcases serializes with ⟨_, rfl⟩ | ⟨_, rfl⟩ <;> simp at hs
  | _ => rfl

/-- A serialize writes the TOTAL_LEN bytes of its block and no byte beyond them. -/
theorem txbuf_read_above {a : Nat} (above : s.totalLen ≤ a) : u.txbuf.read a = s.txbuf.read a := by
  cases h with
  | serialized _ _ whole => exact Memory.read_writeN_other _ _ _ _ (.inr (by omega))
  | _ => rfl

theorem sdubuf_kept (hs : ¬ ∃ lcid n, i = .setSdu lcid n) : u.sdubuf = s.sdubuf := by
  cases h with
  | sourceError | setSdu => exact absurd ⟨_, _, rfl⟩ hs
  | _ => rfl

/-- SET_SDU writes from SDU_FILL on, whether it stages the source's bytes or refuses them. -/
theorem sdubuf_read_below {a : Nat} (below : a < s.sduFill) : u.sdubuf.read a = s.sdubuf.read a := by
  cases h with
  | sourceError | setSdu => exact Memory.read_writeN_other _ _ _ _ (.inl below)
  | _ => rfl

end

end Change

/-- Settles O55: the buffers of a command's next state are those of its change. -/
theorem buffersFrame : Obligations.BuffersFrame := by
  intro i s t ran
  obtain ⟨c, xs, u, h, _, rfl⟩ := exec_change ran
  refine ⟨h.rxbuf_kept, fun other a => ?_, fun a => h.txbuf_read_above, ?_, ?_⟩
  · have tx := h.txbuf_kept (by rintro (rfl | rfl) <;> cases other)
    have sdu := h.sdubuf_kept (by rintro ⟨_, _, rfl⟩; cases other)
    exact ⟨congrArg (Memory.read · a) tx, congrArg (Memory.read · a) h.rxbuf_kept, congrArg (Memory.read · a) sdu⟩
  · rintro ⟨lcid, n, rfl⟩
    exact ⟨h.txbuf_kept (by simp), fun a => h.sdubuf_read_below⟩
  · rintro (rfl | rfl) <;> exact h.sdubuf_kept (by simp)

end Sys2Proof.Machine
end

section
/-! PROOFS. Decoding is one to one (30_encoding R91 to R95): words whose reserved bits are 0 are the encoding of the
operands they hold, so what decodes is encoded again as it was, and every other word list only sets ERR_ILLEGAL. -/

namespace Sys2Proof

/-! ### Word 0 and its masks -/

/-- Word 0 is its three fields (30_encoding R90). -/
theorem cmdWord_fields (w0 : Word) : cmdWord (opcField w0) (aField w0) (bField w0) = w0 := by
  have upper : opcField w0 ++ aField w0 = w0.extractLsb' 16 16 :=
    BitVec.extractLsb'_append_extractLsb'_eq_extractLsb' (w := 32) rfl
  have whole : w0.extractLsb' 16 16 ++ bField w0 = w0.extractLsb' 0 32 :=
    BitVec.extractLsb'_append_extractLsb'_eq_extractLsb' (w := 32) rfl
  rw [cmdWord, upper]
  exact whole.trans BitVec.extractLsb'_eq_self

theorem cmdWord_of_opcField {w0 : Word} {opc : BitVec 8} (opcode : opcField w0 = opc) :
    cmdWord opc (aField w0) (bField w0) = w0 := opcode ▸ cmdWord_fields w0

/-- A word 0 without a bit of a mask has none of the mask's A in A and none of its B in B. -/
theorem fields_and_eq_zero {w0 : Word} {n : BitVec 8} {k : BitVec 16} (h : w0 &&& cmdWord 0 n k = 0) :
    aField w0 &&& n = 0 ∧ bField w0 &&& k = 0 := by
  have a : aField (w0 &&& cmdWord 0 n k) = aField w0 &&& aField (cmdWord 0 n k) := BitVec.extractLsb'_and
  have b : bField (w0 &&& cmdWord 0 n k) = bField w0 &&& bField (cmdWord 0 n k) := BitVec.extractLsb'_and
  rw [h, aField_cmdWord] at a
  rw [h, bField_cmdWord] at b
  exact ⟨a.symm, b.symm⟩

/-- The lowest n bits of A are bits of word 0 from 16 on. -/
theorem aField_extractLsb' (w0 : Word) {n : Nat} (h : n ≤ 8) :
    (aField w0).extractLsb' 0 n = w0.extractLsb' 16 n := by
  apply BitVec.eq_of_getLsbD_eq
  intro i hi
  have inside : i < 8 := by omega
  simp [aField, hi, inside]

/-- A field with no bit above the lowest n is its lowest n bits below zeros. -/
theorem zero_append_extractLsb' {m n : Nat} (x : BitVec (m + n)) (h : x &&& (BitVec.allOnes m ++ 0#n) = 0) :
    0#m ++ x.extractLsb' 0 n = x := by
  have upper : (x &&& (BitVec.allOnes m ++ 0#n)).extractLsb' n m = x.extractLsb' n m := by
    rw [BitVec.extractLsb'_and, BitVec.extractLsb'_append_eq_left, BitVec.and_allOnes]
  have halves : x.extractLsb' n m ++ x.extractLsb' 0 n = x := BitVec.extractLsb'_append_extractLsb'
  rw [h] at upper
  rwa [← upper, show (0 : BitVec (m + n)).extractLsb' n m = 0#m from BitVec.extractLsb'_zero] at halves

/-- A field with all its bits reserved is 0 when none of them is set. -/
theorem eq_zero_of_and_allOnes {n : Nat} (x : BitVec n) (h : x &&& BitVec.allOnes n = 0) : 0 = x := by
  rw [← h, BitVec.and_allOnes]

/-! ### The rows of the opcode map -/

theorem opRow_of_mem {r : OpRow} (listed : r ∈ opTable) : opRow r.opc = some r := by
  have rows : ∀ r ∈ opTable, opRow r.opc = some r := by decide
  exact rows r listed

theorem opRow_some {opc : BitVec 8} {r : OpRow} (row : opRow opc = some r) : r ∈ opTable ∧ opc = r.opc := by
  have same : (r.opc == opc) = true := List.find?_some (p := fun r : OpRow => r.opc == opc) row
  exact ⟨List.mem_of_find?_eq_some row, (beq_iff_eq.mp same).symm⟩

/-- What decoding does with as many operand words as the row says. -/
theorem decode_row {r : OpRow} {w0 : Word} {ops : List Word} (listed : r ∈ opTable) (opcode : opcField w0 = r.opc)
    (len : ops.length = r.nw) :
    decode (w0 :: ops) =
      if reservedBitSet r.rsv (w0 :: ops) then .illegal .reservedBit
      else if (operandsOf r.op w0 ops).wellFormed then .ok (operandsOf r.op w0 ops) else .illegal .bsrFormat := by
  simp only [decode, opcode, opRow_of_mem listed, len, ne_eq, not_true, if_false]

/-- Words that decode have the opcode, the length and the clear reserved bits of a row, and hold the operands. -/
theorem decode_ok {ws : List Word} {i : Instr} (h : decode ws = .ok i) :
    ∃ r w0 ops, ws = w0 :: ops ∧ r ∈ opTable ∧ opcField w0 = r.opc ∧ ops.length = r.nw ∧
      reservedBitSet r.rsv ws = false ∧ operandsOf r.op w0 ops = i ∧ WellFormed i := by
  cases ws with
  | nil => cases h
  | cons w0 ops =>
    have len := decode_ok_length h
    unfold operandWords at len
    cases row : opRow (opcField w0) with
    | none =>
      simp only [decode, row] at h
      cases h
    | some r =>
      obtain ⟨listed, opcode⟩ := opRow_some row
      rw [row] at len
      rw [decode_row listed opcode len] at h
      split_ifs at h with reserved wf
      obtain rfl := Decoded.ok.inj h
      exact ⟨r, w0, ops, rfl, listed, opcode, len, by simpa using reserved, rfl, wf⟩

theorem reservedBitSet_cons {m w : Word} {ms ws : List Word} :
    reservedBitSet (m :: ms) (w :: ws) = false ↔ w &&& m = 0 ∧ reservedBitSet ms ws = false := by
  simp [reservedBitSet]

/-- The words of a row's command with no reserved bit set are the encoding of the operands they hold. -/
def RowEncodes (r : OpRow) : Prop :=
  ∀ (w0 : Word) (ops : List Word), opcField w0 = r.opc → ops.length = r.nw →
    reservedBitSet r.rsv (w0 :: ops) = false → encode (operandsOf r.op w0 ops) = w0 :: ops

/-- With a mask on word 0 alone, it is enough that the encoder writes A and B back as they were. -/
theorem RowEncodes.word0 {opc : BitVec 8} {op : Op} {nw : Nat} {n : BitVec 8} {k : BitVec 16}
    {a : BitVec 8 → BitVec 8} {b : BitVec 16 → BitVec 16} (keepsA : ∀ x, x &&& n = 0 → a x = x)
    (keepsB : ∀ x, x &&& k = 0 → b x = x)
    (encodes : ∀ w0 ops, ops.length = nw →
      encode (operandsOf op w0 ops) = cmdWord opc (a (aField w0)) (b (bField w0)) :: ops) :
    RowEncodes ⟨opc, op, nw, [cmdWord 0 n k]⟩ := by
  intro w0 ops opcode len free
  obtain ⟨ha, hb⟩ := fields_and_eq_zero (reservedBitSet_cons.mp free).1
  rw [encodes w0 ops len, keepsA _ ha, keepsB _ hb, cmdWord_of_opcField opcode]

/-- A command with no operand in word 0: A and B are reserved. -/
theorem RowEncodes.bare {opc : BitVec 8} {op : Op} {nw : Nat}
    (encodes : ∀ w0 ops, ops.length = nw → encode (operandsOf op w0 ops) = cmdWord opc 0 0 :: ops) :
    RowEncodes ⟨opc, op, nw, [0x00FFFFFF]⟩ :=
  .word0 (n := 0xFF) (k := 0xFFFF) (a := fun _ => 0) (b := fun _ => 0) eq_zero_of_and_allOnes eq_zero_of_and_allOnes
    encodes

/-- A command without operands, one word long. -/
theorem RowEncodes.oneWord {opc : BitVec 8} {op : Op}
    (encodes : ∀ w0, encode (operandsOf op w0 []) = [cmdWord opc 0 0]) : RowEncodes ⟨opc, op, 0, [0x00FFFFFF]⟩ :=
  .bare fun | w0, [], _ => encodes w0

/-- A command with an operand in the lowest bits of A: the bits of A above it and B are reserved. -/
theorem RowEncodes.fieldA {opc : BitVec 8} {op : Op} {nw : Nat} {n : BitVec 8} {a : BitVec 8 → BitVec 8}
    (keepsA : ∀ x, x &&& n = 0 → a x = x)
    (encodes : ∀ w0 ops, ops.length = nw → encode (operandsOf op w0 ops) = cmdWord opc (a (aField w0)) 0 :: ops) :
    RowEncodes ⟨opc, op, nw, [cmdWord 0 n 0xFFFF]⟩ :=
  .word0 (b := fun _ => 0) keepsA eq_zero_of_and_allOnes encodes

/-- A command with an operand in B: A is reserved. -/
theorem RowEncodes.fieldB {opc : BitVec 8} {op : Op} {nw : Nat}
    (encodes : ∀ w0 ops, ops.length = nw → encode (operandsOf op w0 ops) = cmdWord opc 0 (bField w0) :: ops) :
    RowEncodes ⟨opc, op, nw, [0x00FF0000]⟩ :=
  .word0 (n := 0xFF) (k := 0) (a := fun _ => 0) (b := id) eq_zero_of_and_allOnes (fun _ _ => rfl) encodes

/-- INIT_TX's one-bit operand. -/
theorem rowEncodes_initTx : RowEncodes ⟨0x01, .initTx, 1, [0x00FEFFFF]⟩ := by
  refine .fieldA (n := 0xFE) (a := fun a => 0#7 ++ a.extractLsb' 0 1)
    (zero_append_extractLsb' (m := 7) (n := 1)) fun w0 ops len => ?_
  obtain ⟨n, rfl⟩ := List.length_eq_one_iff.mp len
  have bit : BitVec.ofBool ((aField w0).getLsbD 0) = (aField w0).extractLsb' 0 1 := by
    ext i hi
    obtain rfl : i = 0 := by omega
    simp
  rw [← bit]
  rfl

theorem rowEncodes_rarSetGrant : RowEncodes ⟨0x35, .rarSetGrant, 2, [0x00C00000, 0xFFFFF800, 0xFFF00000]⟩ := by
  intro w0 ops opcode len free
  obtain ⟨w1, w2, rfl⟩ := List.length_eq_two.mp len
  simp only [reservedBitSet_cons] at free
  obtain ⟨free0, free1, free2, _⟩ := free
  obtain ⟨rapidFree, _⟩ := fields_and_eq_zero (n := 0xC0) (k := 0) free0
  have rapid : (0#2 ++ (aField w0).extractLsb' 0 6 : BitVec 8) = aField w0 :=
    zero_append_extractLsb' (m := 2) _ rapidFree
  have ta : (0#21 ++ w1.extractLsb' 0 11 : Word) = w1 := zero_append_extractLsb' (m := 21) _ free1
  have grant : (0#12 ++ w2.extractLsb' 0 20 : Word) = w2 := zero_append_extractLsb' (m := 12) _ free2
  change [cmdWord 0x35 (0#2 ++ (aField w0).extractLsb' 0 6) (bField w0), 0#21 ++ w1.extractLsb' 0 11,
    0#12 ++ w2.extractLsb' 0 20] = _
  rw [rapid, ta, grant, cmdWord_of_opcField opcode]

/-- SET_CRID's operand is split between B and W1. -/
theorem rowEncodes_setCrid : RowEncodes ⟨0x14, .setCrid, 1, [0x00FF0000]⟩ := by
  refine .fieldB fun w0 ops len => ?_
  obtain ⟨w1, rfl⟩ := List.length_eq_one_iff.mp len
  have upper : (bField w0 ++ w1).extractLsb' 32 16 = bField w0 := BitVec.extractLsb'_append_eq_left
  have lower : (bField w0 ++ w1).extractLsb' 0 32 = w1 := BitVec.extractLsb'_append_eq_right
  change [cmdWord 0x14 0 ((bField w0 ++ w1).extractLsb' 32 16), (bField w0 ++ w1).extractLsb' 0 32] = _
  rw [upper, lower]

theorem rowEncodes_set : ∀ r ∈ opRowsSet, RowEncodes r := by
  simp only [opRowsSet, List.forall_mem_cons]
  exact ⟨rowEncodes_initTx, .bare fun | _, [_], _ => rfl, .oneWord fun _ => rfl, .oneWord fun _ => rfl,
    .oneWord fun _ => rfl, .oneWord fun _ => rfl, .oneWord fun _ => rfl,
    .fieldA (n := 0xE0) (zero_append_extractLsb' (m := 3) (n := 5)) fun | _, [_], _ => rfl,
    .fieldA (n := 0xFC) (zero_append_extractLsb' (m := 6) (n := 2)) fun | _, [_, _, _, _], _ => rfl,
    .fieldB fun | _, [], _ => rfl,
    .fieldA (n := 0xC0) (zero_append_extractLsb' (m := 2) (n := 6)) fun | _, [], _ => rfl,
    rowEncodes_setCrid, .fieldB fun | _, [], _ => rfl, .bare fun | _, [_], _ => rfl, nofun⟩

theorem rowEncodes_get : ∀ r ∈ opRowsGet, RowEncodes r := by
  simp only [opRowsGet, List.forall_mem_cons]
  exact ⟨.oneWord fun _ => rfl, .oneWord fun _ => rfl, .oneWord fun _ => rfl, .oneWord fun _ => rfl,
    .oneWord fun _ => rfl, .oneWord fun _ => rfl, .oneWord fun _ => rfl, .fieldB fun | _, [], _ => rfl, nofun⟩

theorem rowEncodes_rar : ∀ r ∈ opRowsRar, RowEncodes r := by
  simp only [opRowsRar, List.forall_mem_cons]
  exact ⟨.bare fun | _, [_], _ => rfl, .bare fun | _, [_], _ => rfl, .oneWord fun _ => rfl, .oneWord fun _ => rfl,
    .fieldA (n := 0xF0) (zero_append_extractLsb' (m := 4) (n := 4)) fun | _, [], _ => rfl,
    rowEncodes_rarSetGrant, .oneWord fun _ => rfl, .oneWord fun _ => rfl, .oneWord fun _ => rfl,
    .oneWord fun _ => rfl, .oneWord fun _ => rfl, nofun⟩

theorem rowEncodes_of_mem {r : OpRow} (listed : r ∈ opTable) : RowEncodes r := by
  simp only [opTable, List.mem_append] at listed
  rcases listed with (set | get) | rar
  · exact rowEncodes_set r set
  · exact rowEncodes_get r get
  · exact rowEncodes_rar r rar

/-! ### Illegal words -/

namespace Machine

/-- Words that do not decode only set ERR_ILLEGAL (30_encoding R92, R93). -/
theorem runCommand_illegal {ws : List Word} (s : State) (h : ∀ i, decode ws ≠ .ok i) :
    runCommand ws s = .next { s with code := .errIllegal } := by
  rcases runCommand_cases ws s with ⟨i, decodes, _⟩ | ⟨_, _, ran⟩
  · exact absurd decodes (h i)
  · exact ran

/-- The decoder refuses a command with a reserved bit set. -/
theorem decode_reserved {r : OpRow} {w0 : Word} {ops : List Word} (listed : r ∈ opTable)
    (opcode : opcField w0 = r.opc) (len : ops.length = r.nw) (reserved : reservedBitSet r.rsv (w0 :: ops) = true)
    (i : Instr) : decode (w0 :: ops) ≠ .ok i := by
  rw [decode_row listed opcode len, if_pos reserved]
  nofun

/-- The decoder refuses SET_BSR with fmt = 3: what it would decode to is not well-formed. -/
theorem decode_bsrFormat {w0 o0 o1 o2 o3 : Word} (opcode : opcField w0 = 0x11) (fmt : w0.extractLsb' 16 2 = 3)
    (i : Instr) : decode [w0, o0, o1, o2, o3] ≠ .ok i := by
  have row : (⟨0x11, .setBsr, 4, [0x00FCFFFF]⟩ : OpRow) ∈ opTable := by decide
  have field : (aField w0).extractLsb' 0 2 = 3 := (aField_extractLsb' w0 (by decide)).trans fmt
  have format : (operandsOf .setBsr w0 [o0, o1, o2, o3]).wellFormed = false :=
    congrArg (fun f : BitVec 2 => f != 3) field
  rw [decode_row row opcode rfl, format]
  split <;> nofun

/-- An opcode that is not assigned has no row (30_encoding R92). -/
theorem opRow_unassigned {opc : BitVec 8} (h : opc ∉ assignedOpcodes) : opRow opc = none := by
  have opcodes : opTable.map OpRow.opc = assignedOpcodes := by decide
  rw [← opcodes] at h
  refine List.find?_eq_none.mpr fun r listed same => h ?_
  exact List.mem_map.mpr ⟨r, listed, beq_iff_eq.mp same⟩

/-- Settles O1: the decoder finds the row of the encoded opcode, no reserved bit set, and the operands where the encoder
put them. -/
theorem decodeEncodeRoundTrip : Obligations.DecodeEncodeRoundTrip := fun _ => decode_encode

/-- Settles O2: what decodes is a row's command whose reserved bits are clear, and its operands fill the other bits. -/
theorem legalWordsHaveOneCommand : Obligations.LegalWordsHaveOneCommand := by
  intro ws i decodes
  obtain ⟨r, w0, ops, rfl, listed, opcode, len, free, rfl, wf⟩ := decode_ok decodes
  exact ⟨wf, rowEncodes_of_mem listed w0 ops opcode len free⟩

/-- Settles O4: in each of the cases the words decode to no command. -/
theorem illegalCommandsOnlySetStatus : Obligations.IllegalCommandsOnlySetStatus := by
  refine ⟨fun r w0 ops s listed opcode len reserved => ?_, fun w0 o0 o1 o2 o3 s opcode fmt => ?_,
    fun r w0 ops s listed opcode len none => ?_⟩
  · exact runCommand_illegal s (decode_reserved listed opcode len reserved)
  · exact runCommand_illegal s (decode_bsrFormat opcode fmt)
  · refine runCommand_illegal s fun i decodes => ?_
    obtain ⟨wf, encoded⟩ := legalWordsHaveOneCommand _ i decodes
    exact none i wf encoded

/-- Settles O5: without a row there are no operand words to wait for, and the decoder refuses the word. -/
theorem unassignedOpcodeRunsAtOnce : Obligations.UnassignedOpcodeRunsAtOnce := by
  intro w unassigned
  have row := opRow_unassigned unassigned
  have alone : operandWords w = 0 := by simp only [operandWords, row]
  refine ⟨alone, fun s pend => ?_⟩
  rw [writeCmd_word0_last pend alone]
  refine runCommand_illegal s fun i => ?_
  simp only [decode, row]
  nofun

end Machine
end Sys2Proof
end

section
/-! PROOFS. Written commands (30_encoding R96): a written operand reads back as its value, a written command as the
command, and every command that a line stands for is legal. -/

namespace Sys2Proof

/-! ### Operands -/

@[simp] theorem asmUnsigned_asmBits {w : Nat} (v : BitVec w) : asmUnsigned w (asmBits v) = some v := by
  have fits : (0 : Int) ≤ v.toNat ∧ (v.toNat : Int) < 2 ^ w := ⟨Int.natCast_nonneg _, by exact_mod_cast v.isLt⟩
  simp only [asmUnsigned, asmBits, if_pos fits, BitVec.ofInt_natCast, BitVec.ofNat_toNat, BitVec.setWidth_eq]

@[simp] theorem asmSigned16_toInt (v : BitVec 16) : asmSigned16 (.num v.toInt) = some v := by
  have low : -32768 ≤ v.toInt := BitVec.le_toInt v
  have high : v.toInt < 32768 := BitVec.toInt_lt
  have fits : -32768 ≤ v.toInt ∧ v.toInt ≤ 32767 := ⟨low, by omega⟩
  simp only [asmSigned16, if_pos fits, BitVec.ofInt_toInt]

@[simp] theorem asmUnsigned_bit (b : Bool) : asmUnsigned 1 (.num (if b then 1 else 0)) = some (BitVec.ofBool b) := by
  cases b <;> rfl

/-- A format operand names no format but SHORT, LONG and TRUNC. -/
theorem asmFormat_ne_three {x : AsmOperand} {fmt : BitVec 2} (h : asmFormat x = some fmt) : fmt ≠ 3 := by
  cases x <;> cases h <;> decide

/-! ### Lines -/

theorem assemble_setBsr {x : AsmOperand} {fmt : BitVec 2} (format : asmFormat x = some fmt) (o0 o1 o2 o3 : Word) :
    assemble ⟨"SET_BSR", [x, asmBits o0, asmBits o1, asmBits o2, asmBits o3]⟩ = some (.setBsr fmt o0 o1 o2 o3) := by
  simp [assemble, format]

/-- A well-formed command has a written form that assembles to it. -/
theorem assemble_disassemble {i : Instr} (wf : WellFormed i) : ∃ l, disassemble i = some l ∧ assemble l = some i := by
  cases i with
  | initTx pad n =>
    have bit : (BitVec.ofBool pad == 1#1) = pad := by cases pad <;> rfl
    exact ⟨_, rfl, by simp [assemble, bit]⟩
  | setBsr fmt o0 o1 o2 o3 =>
    have named : fmt = 0 ∨ fmt = 1 ∨ fmt = 2 := by
      have all : ∀ f : BitVec 2, (f != 3) = true → f = 0 ∨ f = 1 ∨ f = 2 := by decide
      exact all fmt wf
    rcases named with rfl | rfl | rfl
    · exact ⟨⟨"SET_BSR", [.short, asmBits o0, asmBits o1, asmBits o2, asmBits o3]⟩, by simp [disassemble],
        assemble_setBsr rfl o0 o1 o2 o3⟩
    · exact ⟨⟨"SET_BSR", [.long, asmBits o0, asmBits o1, asmBits o2, asmBits o3]⟩, by simp [disassemble],
        assemble_setBsr rfl o0 o1 o2 o3⟩
    · exact ⟨⟨"SET_BSR", [.trunc, asmBits o0, asmBits o1, asmBits o2, asmBits o3]⟩, by simp [disassemble],
        assemble_setBsr rfl o0 o1 o2 o3⟩
  | append | removeLast | serialize | parse | iterNext | getSdu | getBsr | getPhr | getTa | getCrid | getCrnti
  | getScell | rarAppend | rarRemoveLast | rarSerialize | rarParse | rarIterNext | rarGetGrant | rarGetBackoff =>
    exact ⟨_, rfl, by decide⟩
  | initRx | setSdu | setPhr | setTa | setCrid | setCrnti | setScell | getMchSched | rarInitTx | rarInitRx
  | rarSetBackoff | rarSetGrant => exact ⟨_, rfl, by simp [assemble]⟩

/-- Every command the answer can be is legal. -/
def ReadsLegal (r : Option Instr) : Prop := ∀ i, r = some i → WellFormed i

theorem ReadsLegal.none : ReadsLegal none := nofun

theorem ReadsLegal.some {i : Instr} (legal : WellFormed i) : ReadsLegal (some i) := by
  rintro _ ⟨⟩
  exact legal

theorem ReadsLegal.map {α : Type} {f : α → Instr} (legal : ∀ x, WellFormed (f x)) (r : Option α) :
    ReadsLegal (r.map f) := by
  cases r with
  | none => exact .none
  | some x => exact .some (legal x)

theorem ReadsLegal.ite {p : Prop} [Decidable p] {a b : Option Instr} (ha : ReadsLegal a) (hb : ReadsLegal b) :
    ReadsLegal (if p then a else b) := by
  split
  · exact ha
  · exact hb

theorem ReadsLegal.lookup {m : String} {names : List (String × Instr)} (legal : ∀ p ∈ names, WellFormed p.2) :
    ReadsLegal (names.lookup m) := by
  intro i found
  obtain ⟨before, after, rfl, _⟩ := List.lookup_eq_some_iff.mp found
  exact legal (m, i) List.mem_append_cons_self

/-- A line with one operand. -/
theorem readsLegal_assemble_one (m : String) (x : AsmOperand) : ReadsLegal (assemble ⟨m, [x]⟩) :=
  .ite (.map (fun _ => rfl) _) <| .ite (.map (fun _ => rfl) _) <| .ite (.map (fun _ => rfl) _) <|
  .ite (.map (fun _ => rfl) _) <| .ite (.map (fun _ => rfl) _) <| .ite (.map (fun _ => rfl) _) <|
  .ite (.map (fun _ => rfl) _) <| .ite (.map (fun _ => rfl) _) <| .ite (.map (fun _ => rfl) _) <|
  .ite (.map (fun _ => rfl) _) .none

/-- Whatever assembles is legal: SET_BSR's format is a named one, and no other operand can make a command illegal. -/
theorem readsLegal_assemble (l : AsmLine) : ReadsLegal (assemble l) := by
  obtain ⟨m, operands⟩ := l
  match operands with
  | [] => exact .lookup (by decide)
  | [x] => exact readsLegal_assemble_one m x
  | [x, y] =>
    refine .ite ?_ (.ite ?_ .none) <;> split
    · exact .some rfl
    · exact .none
    · exact .some rfl
    · exact .none
  | [x, y, z] => exact .none
  | [x, y, z, u] =>
    refine .ite ?_ .none
    split
    · exact .some rfl
    · exact .none
  | [f, x, y, z, u] =>
    refine .ite ?_ .none
    split
    · next format _ _ _ _ => exact .some (bne_iff_ne.mpr (asmFormat_ne_three format))
    · exact .none
  | _ :: _ :: _ :: _ :: _ :: _ :: _ => exact .none

/-- Settles O60: a command's operands read back as they are written, and a line gives no SET_BSR with fmt = 3. -/
theorem assemblerRoundTrip : Obligations.AssemblerRoundTrip :=
  ⟨fun _ => assemble_disassemble, readsLegal_assemble⟩

end Sys2Proof
end

section
/-! PROOFS. The host's pseudo-commands (30_encoding R97): APPEND, one command that populates the new slot or leaves it
EMPTY, and REMOVE_LAST, which gives back what was there before. -/

namespace Sys2Proof.Machine

/-! ### A build with one more slot -/

/-- COUNT, REM_LEN, LAST_SDU and SDU_FILL of `t` are those of `s`. -/
abbrev SameAccounting (s t : State) : Prop :=
  t.count = s.count ∧ t.remLen = s.remLen ∧ t.lastSdu = s.lastSdu ∧ t.sduFill = s.sduFill

/-- `u` is the build `s` with one slot more, whose snapshot is what the registers of `s` hold. -/
structure OneMore (s u : State) : Prop where
  build  : GeneralBuild u
  count  : u.count = s.count + 1
  inFile : s.count < u.slots.length
  below  : ∀ k < s.count, slotAt u k = slotAt s k
  rem    : (slotAt u s.count).remBefore = s.remLen
  last   : (slotAt u s.count).lastBefore = s.lastSdu
  fill   : (slotAt u s.count).fillBefore = s.sduFill

theorem OneMore.lastIndex {s u : State} (h : OneMore s u) : u.count - 1 = s.count := by rw [h.count]; rfl

/-- APPEND in a build with room whose last slot is populated (41_container_tx R163). -/
theorem exec_append {s : State} (build : GeneralBuild s) (populated : ¬ LastEmpty s)
    (room : s.count ≠ s.cfg.maxSubpdus) :
    exec .append s = doneWith [word s.count] { s.setSlot s.count (freshSlot s) with count := s.count + 1 } := by
  have populated := mt (lastSlotEmpty_iff s).mp populated
  simp [exec, execAppend, (building_general s).mpr build, populated, room]

/-- REMOVE_LAST in a build with a slot (41_container_tx R164). -/
theorem exec_removeLast {s : State} (build : GeneralBuild s) (nonempty : s.count ≠ 0) :
    exec .removeLast s = doneWith [word (s.count - 1)]
      { s with remLen := (slotAt s (s.count - 1)).remBefore, lastSdu := (slotAt s (s.count - 1)).lastBefore,
               sduFill := (slotAt s (s.count - 1)).fillBefore, count := s.count - 1 } := by
  simp [exec, execRemoveLast, (building_general s).mpr build, nonempty]

theorem OneMore.append {s : State} (h : RunInv s) (build : GeneralBuild s) (populated : ¬ LastEmpty s)
    (room : s.count ≠ s.cfg.maxSubpdus) : ∃ u, exec .append s = .next u ∧ OneMore s u := by
  obtain ⟨⟨_, files, _⟩, _, ⟨_, _, counted, _⟩, _, _, _, _, tx, _⟩ := h
  obtain ⟨fits, _⟩ := tx ((building_general s).mpr build)
  have inFile : s.count < s.slots.length := by omega
  let u := { s.setSlot s.count (freshSlot s) with count := s.count + 1 }
  have fresh : slotAt u s.count = freshSlot s := slotAt_set_same rfl inFile
  exact ⟨_, exec_append build populated room, build, rfl, by simpa using inFile,
    fun k below => slotAt_set_other (u := u) rfl (Nat.ne_of_lt below), congrArg Slot.remBefore fresh,
    congrArg Slot.lastBefore fresh, congrArg Slot.fillBefore fresh⟩

/-- A command that populates the last slot of a build: SET_SDU or a SET_ CE command. -/
abbrev Populates (i : Instr) : Prop := (∃ lcid n, i = .setSdu lcid n) ∨ ceCommand i ≠ none

/-- What a populating command writes of the slot file: at most the last slot, and not its snapshot. -/
structure WritesLastSlot (s u : State) : Prop where
  build : GeneralBuild s → GeneralBuild u
  count : u.count = s.count
  slots : ∃ x, u.slots = s.slots.set (s.count - 1) x ∧
    x.remBefore = (slotAt s (s.count - 1)).remBefore ∧ x.lastBefore = (slotAt s (s.count - 1)).lastBefore ∧
    x.fillBefore = (slotAt s (s.count - 1)).fillBefore

theorem WritesLastSlot.of_slots {s u : State} (build : GeneralBuild s → GeneralBuild u) (count : u.count = s.count)
    (slots : u.slots = s.slots) : WritesLastSlot s u := by
  refine ⟨build, count, slotAt s (s.count - 1), slots.trans ?_, rfl, rfl, rfl⟩
  rcases Nat.lt_or_ge (s.count - 1) s.slots.length with inFile | beyond
  · simp [slotAt, List.getD, inFile]
  · rw [List.set_eq_of_length_le beyond]

theorem Change.writesLastSlot {s u : State} {i : Instr} {c : Status} (h : Change s i c u) (hi : Populates i) :
    WritesLastSlot s u := by
  cases h with
  | setSdu | setCe => exact ⟨id, rfl, _, rfl, rfl, rfl, rfl⟩
  | failed | answered | noSdu | sourceError => exact .of_slots id rfl rfl
  | serialized serializes | notSerialized serializes =>
    rcases serializes with ⟨_, rfl⟩ | ⟨_, rfl⟩ <;> simp [Populates, ceCommand] at hi
  | _ => simp [Populates, ceCommand] at hi

theorem OneMore.populate {s u t : State} {i : Instr} (h : OneMore s u) (hi : Populates i) (ran : exec i u = .next t) :
    OneMore s t := by
  obtain ⟨c, xs, v, change, _, rfl⟩ := exec_change ran
  obtain ⟨build, count, x, slots, rem, last, fill⟩ := change.writesLastSlot hi
  have lastIndex := h.lastIndex
  rw [lastIndex] at slots rem last fill
  have written : slotAt v s.count = x := slotAt_set_same slots h.inFile
  refine ⟨build h.build, count.trans h.count, ?_, fun k below => ?_, ?_, ?_, ?_⟩
  · exact Nat.lt_of_lt_of_eq h.inFile (by simp [slots])
  · exact (slotAt_set_other (u := v) slots (Nat.ne_of_lt below)).trans (h.below k below)
  · exact (congrArg Slot.remBefore written).trans (rem.trans h.rem)
  · exact (congrArg Slot.lastBefore written).trans (last.trans h.last)
  · exact (congrArg Slot.fillBefore written).trans (fill.trans h.fill)

/-- REMOVE_LAST gives back the slots and the accounting of the build before APPEND (41_container_tx R164). -/
theorem OneMore.removeLast {s u : State} (h : OneMore s u) (populated : ¬ LastEmpty s) :
    ∃ t, exec .removeLast u = .next t ∧ ¬ LastEmpty t ∧ SameAccounting s t := by
  have lastIndex := h.lastIndex
  refine ⟨_, exec_removeLast h.build (by rw [h.count]; simp), ?_, lastIndex, ?_, ?_, ?_⟩
  · rintro ⟨some, kind⟩
    change 0 < u.count - 1 at some
    change (slotAt u (u.count - 1 - 1)).kind = .empty at kind
    rw [lastIndex] at some kind
    exact populated ⟨some, (congrArg Slot.kind (h.below _ (by omega))).symm.trans kind⟩
  · exact lastIndex ▸ h.rem
  · exact lastIndex ▸ h.last
  · exact lastIndex ▸ h.fill

/-! ### When the last slot is populated -/

/-- A SET_ CE command that ends OK has populated the last slot with its kind. -/
theorem ceCommand_populates {s t : State} {i : Instr} {kind : Kind} {payload : List Byte}
    (sets : ceCommand i = some (kind, payload)) (inFile : s.count - 1 < s.slots.length) (ran : exec i s = .next t)
    (ok : t.code = .ok) : (slotAt t (s.count - 1)).kind = kind := by
  obtain ⟨c, xs, u, change, _, rfl⟩ := exec_change ran
  obtain rfl : c = .ok := ok
  cases change with
  | setCe sets' =>
    obtain ⟨rfl, _⟩ := Prod.mk.inj (Option.some.inj (sets'.symm.trans sets))
    exact congrArg Slot.kind (slotAt_set_same (u := s.withCe _ _ _) rfl inFile)
  | failed _ plain => simp at plain
  | answered reads =>
    rcases reads with getter | ⟨_, _, rfl⟩
    · cases i with
      | setBsr | setPhr | setTa | setCrid | setCrnti | setScell => cases getter
      | _ => cases sets
    · cases sets
  | serialized serializes => rcases serializes with ⟨_, rfl⟩ | ⟨_, rfl⟩ <;> cases sets
  | _ => cases sets

/-- If the outcome is a next state with STATUS = OK and a RESULT0 other than 0, its slot k is an SDU. -/
def PlacesSdu (k : Nat) (r : Result) : Prop :=
  ∀ t, r = .next t → t.code = .ok → t.results.r0 ≠ 0 → (slotAt t k).kind = .sdu

theorem PlacesSdu.fail {k : Nat} {c : Status} (s : State) (failed : c ≠ .ok) : PlacesSdu k (fail c s) := by
  rintro _ ⟨⟩ ok
  exact absurd ok failed

theorem PlacesSdu.zero {k : Nat} (s : State) : PlacesSdu k (doneWith [word 0] s) := by
  rintro _ ⟨⟩ _ nonzero
  exact absurd rfl nonzero

theorem PlacesSdu.ite {k : Nat} {p : Prop} [Decidable p] {a b : Result} (ha : PlacesSdu k a) (hb : PlacesSdu k b) :
    PlacesSdu k (if p then a else b) := by
  split
  · exact ha
  · exact hb

theorem PlacesSdu.takeAnswer {s : State} (inFile : s.count - 1 < s.slots.length) (lcid : BitVec 5) (mx : Nat)
    (a : SourceAnswer) : PlacesSdu (s.count - 1) (takeAnswer lcid mx a s) := by
  unfold Machine.takeAnswer
  split
  · exact .fail _ (by decide)
  · next d _ =>
    refine .ite (.fail _ (by decide)) (.ite (.zero s) ?_)
    intro t ran _ _
    obtain ⟨m, _, done⟩ := orFault_next ran
    cases done
    exact congrArg Slot.kind (slotAt_set_same (u := placeSdu lcid d.length s) rfl inFile)

/-- A SET_SDU that ends OK with RESULT0 other than 0 has populated the last slot with an SDU. -/
theorem setSdu_populates {s : State} (inFile : s.count - 1 < s.slots.length) (lcid : BitVec 5) (n : Word) :
    PlacesSdu (s.count - 1) (exec (.setSdu lcid n) s) := by
  refine .ite (.fail s (by decide)) (.ite (.fail s (by decide)) (.ite (.fail s (by decide))
    (.ite (.fail s (by decide)) (.ite (.zero s) ?_))))
  obtain ⟨source, draws, read⟩ := sourceRead_state lcid (sduRequest n s) s
  dsimp only
  rw [read]
  exact PlacesSdu.takeAnswer (s := { s with source := source, draws := draws }) inFile _ _ _

/-! ### The sequences -/

/-- APPEND, a command that populates, and REMOVE_LAST when the host sees `undo`, with the new slot populated by a command
after which it does not. -/
theorem sequence_ends {s : State} (h : RunInv s) (build : GeneralBuild s) (populated : ¬ LastEmpty s)
    (room : s.count ≠ s.cfg.maxSubpdus) {i : Instr} (hi : Populates i) {kind : Kind} (notEmpty : kind ≠ .empty)
    (undo : State → Prop) [DecidablePred undo]
    (places : ∀ u t, OneMore s u → exec i u = .next t → ¬ undo t → (slotAt t s.count).kind = kind) :
    ∃ t, (thenRun (exec .append s) fun u => thenRun (exec i u) fun t =>
        if undo t then exec .removeLast t else .next t) = .next t ∧
      ¬ LastEmpty t ∧ (SameAccounting s t ∨ (t.count = s.count + 1 ∧ (slotAt t s.count).kind = kind)) := by
  obtain ⟨u, appended, more⟩ := OneMore.append h build populated room
  obtain ⟨t, ran⟩ := exec_goesOn (exec_keeps_runInv h appended) i
  have after := more.populate hi ran
  simp only [appended, ran, thenRun]
  split
  · obtain ⟨v, removed, filled, same⟩ := after.removeLast populated
    exact ⟨v, removed, filled, .inl same⟩
  · next kept =>
    have placed := places u t more ran kept
    refine ⟨t, rfl, ?_, .inr ⟨after.count, placed⟩⟩
    rintro ⟨_, empty⟩
    rw [after.count, Nat.add_sub_cancel, placed] at empty
    exact notEmpty empty

/-- Settles O59: without REMOVE_LAST the command ended OK and populated the new slot; with it the slot is gone and the
registers hold its snapshot. -/
theorem pseudoCommandsLeaveNoEmptySlot : Obligations.PseudoCommandsLeaveNoEmptySlot := by
  intro s h build populated room _
  refine ⟨fun lcid n => ?_, fun i kind p sets => ?_⟩
  · refine sequence_ends h build populated room (.inl ⟨lcid, n, rfl⟩) (by decide) _ fun u t more ran kept => ?_
    obtain ⟨ok, bytes⟩ := not_or.mp kept
    have lastIndex := more.lastIndex
    have placed := setSdu_populates (s := u) (by rw [lastIndex]; exact more.inFile) lcid n t ran (not_not.mp ok) bytes
    rwa [lastIndex] at placed
  · have ce := isCe_of_settableSize (settableSize_ceCommand sets)
    have notEmpty : kind ≠ .empty := by
      rintro rfl
      cases ce
    refine sequence_ends h build populated room (.inr (by simp [sets])) notEmpty _ fun u t more ran kept => ?_
    have lastIndex := more.lastIndex
    have placed := ceCommand_populates sets (by rw [lastIndex]; exact more.inFile) ran (not_not.mp kept)
    rwa [lastIndex] at placed

end Sys2Proof.Machine
end

section
/-! PROOFS. Buffer-size and power-headroom quantization (40_quantization). `bsIndex_le_iff` ties the index to the edges
(R141); what an index expands to (R142) and the laws (R143) follow from it. -/

namespace Sys2Proof.Machine

/-- An index up to 63 fits the 6-bit field that carries it. -/
theorem toNat_indexField {n : Nat} (le : n ≤ 63) : (BitVec.ofNat 6 n).toNat = n := by
  rw [BitVec.toNat_ofNat, Nat.mod_eq_of_lt (Nat.lt_succ_of_le le)]

/-! ### The edges -/

theorem bsEdge_pairwise_lt : bsEdge.Pairwise (· < ·) := by decide

/-- The edges are strictly increasing (40_quantization R140). -/
theorem bsEdge_lt {i j : Nat} (less : i < j) (inTable : j ≤ 62) : bsEdge.getD i 0 < bsEdge.getD j 0 := by
  have inList : j < bsEdge.length := Nat.lt_succ_of_le inTable
  rw [List.getD_eq_getElem _ _ inList, List.getD_eq_getElem _ _ (less.trans inList)]
  exact List.pairwise_iff_getElem.mp bsEdge_pairwise_lt i j _ _ less

theorem bsEdge_le {i j : Nat} (le : i ≤ j) (inTable : j ≤ 62) : bsEdge.getD i 0 ≤ bsEdge.getD j 0 := by
  obtain rfl | less := le.eq_or_lt
  · rfl
  · exact (bsEdge_lt less inTable).le

/-! ### The buffer-size index -/

/-- A count within edge i is in band i or below, since the edges increase. -/
theorem bsIndex_le_iff {x i : Nat} (inTable : i ≤ 62) : bsIndex x ≤ i ↔ x ≤ bsEdge.getD i 0 := by
  have inList : i < bsEdge.length := Nat.lt_succ_of_le inTable
  constructor
  · intro le
    have found : bsIndex x < bsEdge.length := le.trans_lt inList
    have within : x ≤ bsEdge.getD (bsIndex x) 0 := by
      rw [List.getD_eq_getElem _ _ found]
      exact of_decide_eq_true (List.findIdx_getElem (w := found))
    exact within.trans (bsEdge_le le inTable)
  · intro within
    by_contra above
    rw [List.getD_eq_getElem _ _ inList] at within
    exact of_decide_eq_false (List.not_of_lt_findIdx (Nat.lt_of_not_le above)) within

theorem lt_bsIndex_iff {x i : Nat} (inTable : i ≤ 62) : i < bsIndex x ↔ bsEdge.getD i 0 < x := by
  rw [← Nat.not_le, bsIndex_le_iff inTable, Nat.not_le]

theorem bsIndex_le_63 (x : Nat) : bsIndex x ≤ 63 := List.findIdx_le_length

theorem bsIndex_le_62_iff (x : Nat) : bsIndex x ≤ 62 ↔ x ≤ 150000 := bsIndex_le_iff le_rfl

theorem bsIndex_eq_63_iff (x : Nat) : bsIndex x = 63 ↔ 150000 < x := by
  have last := bsIndex_le_62_iff x
  have most := bsIndex_le_63 x
  omega

theorem bsIndex_eq_zero_iff (x : Nat) : bsIndex x = 0 ↔ x = 0 := by
  rw [← Nat.le_zero, bsIndex_le_iff (Nat.zero_le 62)]
  exact Nat.le_zero

/-- Band i lies above the edge before it (40_quantization R141). -/
theorem bsIndex_eq_iff {x i : Nat} (first : 1 ≤ i) (inTable : i ≤ 62) :
    bsIndex x = i ↔ bsEdge.getD (i - 1) 0 < x ∧ x ≤ bsEdge.getD i 0 := by
  rw [← lt_bsIndex_iff (by omega), ← bsIndex_le_iff inTable]
  omega

theorem bsIndex_least {x : Nat} (small : x ≤ 150000) :
    bsIndex x ≤ 62 ∧ x ≤ bsEdge.getD (bsIndex x) 0 ∧ ∀ j < bsIndex x, bsEdge.getD j 0 < x := by
  have inTable := (bsIndex_le_62_iff x).mpr small
  exact ⟨inTable, (bsIndex_le_iff inTable).mp le_rfl,
    fun j below => (lt_bsIndex_iff (below.le.trans inTable)).mp below⟩

theorem bsIndex_mono {x y : Nat} (le : x ≤ y) : bsIndex x ≤ bsIndex y := by
  obtain inTable | above := le_or_gt (bsIndex y) 62
  · exact (bsIndex_le_iff inTable).mpr (le.trans ((bsIndex_le_iff inTable).mp le_rfl))
  · exact (bsIndex_le_63 x).trans above

theorem bsIndex_edge {i : Nat} (inTable : i ≤ 62) : bsIndex (bsEdge.getD i 0) = i := by
  refine le_antisymm ((bsIndex_le_iff inTable).mpr le_rfl) (Nat.le_of_not_lt fun below => ?_)
  have within := (bsIndex_le_iff (below.le.trans inTable)).mp le_rfl
  exact absurd within (bsEdge_lt below inTable).not_ge

/-! ### What an index expands to -/

theorem bsValue_edge (c : Config) {i : BitVec 6} (inTable : i.toNat ≤ 62) : bsValue c i = bsEdge.getD i.toNat 0 :=
  if_pos inTable

theorem bsValue_63 (c : Config) : bsValue c 63 = c.bsIdx63Value := rfl

/-- A count in the table expands to at least itself (40_quantization R143). -/
theorem le_bsValue_bsIndex (c : Config) {x : Nat} (small : x ≤ 150000) :
    x ≤ bsValue c (BitVec.ofNat 6 (bsIndex x)) := by
  obtain ⟨inTable, within, _⟩ := bsIndex_least small
  have fits := toNat_indexField (bsIndex_le_63 x)
  rw [bsValue_edge c (fits.trans_le inTable), fits]
  exact within

theorem bsIndex_bsValue (c : Config) {i : BitVec 6} (inTable : i.toNat ≤ 62) : bsIndex (bsValue c i) = i.toNat := by
  rw [bsValue_edge c inTable, bsIndex_edge inTable]

/-- Settles O17: an index is at most i exactly when the count is within edge i, and the edges increase. -/
theorem bufferSizeIndexAndLaws : Obligations.BufferSizeIndexAndLaws := by
  refine ⟨fun x => ⟨bsIndex_least, (bsIndex_eq_63_iff x).mpr, bsIndex_eq_zero_iff x, fun i => bsIndex_eq_iff,
      bsIndex_eq_63_iff x⟩, fun c i => bsValue_edge c, bsValue_63, fun x y => bsIndex_mono, bsIndex_eq_63_iff,
    (bsIndex_eq_zero_iff 0).mpr rfl, fun x positive => ?_, fun c x => le_bsValue_bsIndex c,
    fun c i => bsIndex_bsValue c, fun c _ => bsIndex_eq_63_iff c.bsIdx63Value, fun c last => ?_,
    fun i j => bsEdge_lt⟩
  · exact (lt_bsIndex_iff (Nat.zero_le 62)).mpr positive
  · rw [bsValue_63, last]
    exact bsIndex_edge le_rfl

/-! ### Power headroom -/

theorem phIndex_eq (v : Int) : (phIndex v : Int) = min (max v (-23)) 40 + 23 := by
  have floor : 0 ≤ min (max v (-23)) 40 + 23 := by omega
  exact Int.toNat_of_nonneg floor

theorem phIndex_le_63 (v : Int) : phIndex v ≤ 63 := by
  have clamped := phIndex_eq v
  omega

theorem phIndex_mono {v w : Int} (le : v ≤ w) : phIndex v ≤ phIndex w :=
  Int.toNat_le_toNat (Int.add_le_add_right (min_le_min_right 40 (max_le_max_right (-23) le)) 23)

theorem phIndex_below {v : Int} (low : v ≤ -23) : phIndex v = 0 := by
  rw [phIndex, max_eq_right low]
  rfl

theorem phIndex_above {v : Int} (high : 40 ≤ v) : phIndex v = 63 := by
  rw [phIndex, min_eq_right (le_max_of_le_left high)]
  rfl

theorem phIndex_inRange {v : Int} (low : -23 ≤ v) (high : v ≤ 40) : phIndex v = (v + 23).toNat := by
  rw [phIndex, max_eq_left low, min_eq_left high]

theorem phValue_range (i : BitVec 6) : -23 ≤ phValue i ∧ phValue i ≤ 40 := by
  have bits : i.toNat < 64 := i.isLt
  unfold phValue
  omega

/-- The headroom inside the range comes back (40_quantization R148). -/
theorem phValue_phIndex {v : Int} (low : -23 ≤ v) (high : v ≤ 40) : phValue (BitVec.ofNat 6 (phIndex v)) = v := by
  rw [phValue, toNat_indexField (phIndex_le_63 v), phIndex_inRange low high, Int.toNat_of_nonneg (by omega),
    Int.add_sub_cancel]

theorem phIndex_phValue (i : BitVec 6) : phIndex (phValue i) = i.toNat := by
  obtain ⟨low, high⟩ := phValue_range i
  rw [phIndex_inRange low high, phValue, Int.sub_add_cancel, Int.toNat_natCast]

/-- Settles O18: the index is the clamped headroom plus 23, and the clamp leaves the values of the range alone. -/
theorem powerHeadroomLaws : Obligations.PowerHeadroomLaws :=
  ⟨fun v => ⟨phIndex_eq v, phIndex_le_63 v⟩, fun i => ⟨rfl, phValue_range i⟩, fun _ _ => phIndex_mono,
    fun _ => phIndex_below, fun _ => phIndex_above, fun _ => phValue_phIndex, phIndex_phValue⟩

end Sys2Proof.Machine
end

section
/-! PROOFS. The commands of a general build, check by check (41_container_tx R162 to R168): the INIT commands, APPEND,
REMOVE_LAST, SET_SDU with each answer of the source, and REMOVE_LAST as the undoing of an APPEND. -/

namespace Sys2Proof.Machine

/-! ### INIT, APPEND, REMOVE_LAST -/

/-- Outside a general build the commands of a build end with ERR_STATE. -/
theorem unless_building {s : State} (other : ¬ GeneralBuild s) (r : Result) :
    (if !building .general s then fail .errState s else r) = .next { s with code := .errState } := by
  have no : building .general s = false := by simpa using mt (building_general s).mp other
  rw [no]
  rfl

/-- Settles O19: every INIT command is `initCommand`, which has one check. -/
theorem initCommandsStartAContainer : Obligations.InitCommandsStartAContainer :=
  fun _ _ _ => ⟨fun long => ⟨if_pos long, if_pos long, if_pos long, if_pos long⟩, fun fits =>
    have short := Nat.not_lt_of_le fits
    ⟨if_neg short, if_neg short, if_neg short, if_neg short⟩⟩

theorem append_lastEmpty {s : State} (build : GeneralBuild s) (empty : LastEmpty s) :
    OnlyEndsWith .append s .errState := by
  change execAppend s = _
  rw [execAppend, (building_general s).mpr build, (lastSlotEmpty_iff s).mpr empty]
  rfl

theorem append_full {s : State} (build : GeneralBuild s) (populated : ¬ LastEmpty s)
    (full : s.count = s.cfg.maxSubpdus) : OnlyEndsWith .append s .errCapacity := by
  change execAppend s = _
  rw [execAppend, (building_general s).mpr build, if_neg (mt (lastSlotEmpty_iff s).mp populated), if_pos full]
  rfl

/-- Settles O20: the checks in order; `exec_append` is the command that passes them. -/
theorem appendClaimsNextSlot : Obligations.AppendClaimsNextSlot :=
  fun _ => ⟨fun other => unless_building other _, append_lastEmpty, append_full, exec_append⟩

theorem removeLast_noSlot {s : State} (build : GeneralBuild s) (noSlot : s.count = 0) :
    OnlyEndsWith .removeLast s .errState := by
  change execRemoveLast s = _
  rw [execRemoveLast, (building_general s).mpr build, if_pos noSlot]
  rfl

/-- Settles O21: the checks in order; `exec_removeLast` is the command that passes them. -/
theorem removeLastRestoresSnapshot : Obligations.RemoveLastRestoresSnapshot :=
  fun _ => ⟨fun other => unless_building other _, removeLast_noSlot, exec_removeLast⟩

/-- Settles O22: after APPEND the build has one slot more with the registers as its snapshot (`OneMore`), a set command
keeps that, and REMOVE_LAST gives the snapshot back. -/
theorem removeUndoesAppend : Obligations.RemoveUndoesAppend := by
  intro s i h build populated room sets
  obtain ⟨t, appended, more⟩ := OneMore.append h build populated room
  obtain ⟨u, ran⟩ := exec_goesOn (exec_keeps_runInv h appended) i
  have after := more.populate sets ran
  obtain ⟨v, removed, _, count, rem, last, fill⟩ := after.removeLast populated
  have code : v.code = .ok := by
    have nonempty : u.count ≠ 0 := by rw [after.count]; exact Nat.succ_ne_zero _
    cases (exec_removeLast after.build nonempty).symm.trans removed
    rfl
  exact ⟨t, u, v, appended, ran, removed, code, rem, last, fill, count⟩

/-! ### SET_SDU before the source is asked -/

section
variable {s : State} {lcid : BitVec 5} {req : Word} (build : GeneralBuild s)
include build

theorem setSdu_noEmptySlot (populated : ¬ LastEmpty s) : OnlyEndsWith (.setSdu lcid req) s .errState := by
  have populated : lastSlotEmpty s = false := by simpa using mt (lastSlotEmpty_iff s).mp populated
  change execSetSdu lcid req s = _
  rw [execSetSdu, (building_general s).mpr build, populated]
  rfl

theorem setSdu_otherLcid (empty : LastEmpty s) (other : isSduLcid s.cfg lcid = false) :
    OnlyEndsWith (.setSdu lcid req) s .errDirection := by
  change execSetSdu lcid req s = _
  rw [execSetSdu, (building_general s).mpr build, (lastSlotEmpty_iff s).mpr empty, other]
  rfl

variable (empty : LastEmpty s) (isSdu : isSduLcid s.cfg lcid = true)
include empty isSdu

theorem setSdu_noRoom (noRoom : sduRoom s < 1) : OnlyEndsWith (.setSdu lcid req) s .errCapacity := by
  change execSetSdu lcid req s = _
  rw [execSetSdu, (building_general s).mpr build, (lastSlotEmpty_iff s).mpr empty, isSdu, if_pos noRoom]
  rfl

theorem setSdu_asksNothing (room : 1 ≤ sduRoom s) (nothing : sduRequest req s = 0) :
    exec (.setSdu lcid req) s = doneWith [word 0] s := by
  have hasRoom : ¬ sduRoom s < 1 := by omega
  change execSetSdu lcid req s = _
  rw [execSetSdu, (building_general s).mpr build, (lastSlotEmpty_iff s).mpr empty, isSdu, if_neg hasRoom,
    if_pos nothing]
  rfl

end

/-! ### What SET_SDU makes of the answer -/

theorem Memory.writtenAt_writeN {m : Memory} (a : Nat) (bs : List Byte) (wf : m.wf = true) :
    WrittenAt m (m.writeN a bs) a bs := by
  intro x
  split
  · next inside =>
    have read := m.read_writeN_inside a (x - a) bs wf (by omega)
    rw [Nat.add_sub_cancel' inside.1] at read
    simp [read, List.getD, show x - a < bs.length by omega]
  · next outside => exact m.read_writeN_other a x bs (by omega)

/-- The answer of a source that failed or gave more than it was asked for (41_container_tx R168). -/
abbrev BadAnswer (mx : Nat) (a : SourceAnswer) : Prop :=
  a.answer = none ∨ ∃ d, a.answer = some d ∧ mx < d.length

theorem takeAnswer_bad {mx : Nat} {a : SourceAnswer} (bad : BadAnswer mx a) (lcid : BitVec 5) (s : State) :
    takeAnswer lcid mx a s = sourceFailed a.residue s := by
  unfold takeAnswer
  rcases bad with none | ⟨d, some, long⟩
  · rw [none]
  · simp only [some, if_pos long]

theorem takeAnswer_nothing {a : SourceAnswer} (nothing : a.answer = some []) (lcid : BitVec 5) (mx : Nat)
    (s : State) : takeAnswer lcid mx a s = doneWith [word 0] s := by
  simp [takeAnswer, nothing]

theorem takeAnswer_bytes {s : State} {mx : Nat} {a : SourceAnswer} {d : List Byte} (answer : a.answer = some d)
    (nonempty : 1 ≤ d.length) (asked : d.length ≤ mx) (fits : s.sduFill + d.length ≤ s.cfg.maxTbBytes)
    (lcid : BitVec 5) :
    takeAnswer lcid mx a s =
      doneWith [word d.length] (placeSdu lcid d.length { s with sdubuf := s.sdubuf.writeN s.sduFill d }) := by
  have notLong := Nat.not_lt_of_le asked
  have notZero := Nat.ne_of_gt nonempty
  simp only [takeAnswer, answer, if_neg notLong, if_neg notZero, commitSdu, memWrite_eq _ _ _ _ (.inr fits),
    orFault_some]

/-- The state after a SourceRead differs in the source's inputs alone. -/
theorem sourceRead_after {lcid : BitVec 5} {mx : Nat} {s s' : State} {a : SourceAnswer}
    (read : sourceRead lcid mx s = (a, s')) : s' = { s with source := s'.source, draws := s'.draws } := by
  obtain ⟨source, draws, after⟩ := sourceRead_state lcid mx s
  cases (congrArg Prod.snd read).symm.trans after
  rfl

section
variable {s s' : State} {lcid : BitVec 5} {req : Word} {a : SourceAnswer} (build : GeneralBuild s)
  (empty : LastEmpty s) (isSdu : isSduLcid s.cfg lcid = true) (room : 1 ≤ sduRoom s) (asks : 1 ≤ sduRequest req s)
  (read : sourceRead lcid (sduRequest req s) s = (a, s'))
include build empty isSdu room asks read

/-- SET_SDU that passes its checks and asks for bytes takes the answer, with the source's inputs after the read. -/
theorem setSdu_takesAnswer :
    exec (.setSdu lcid req) s =
      takeAnswer lcid (sduRequest req s) a { s with source := s'.source, draws := s'.draws } := by
  rw [setSdu_takes build empty isSdu room (Nat.ne_of_gt asks), read, ← sourceRead_after read]

/-- SET_SDU with a bad answer: ERR_SOURCE, and the residue in SDUBUF from SDU_FILL on (41_container_tx R168). -/
theorem setSdu_sourceFailed (bad : BadAnswer (sduRequest req s) a) :
    ∃ bytes, exec (.setSdu lcid req) s = .next
      { s with sdubuf := s.sdubuf.writeN s.sduFill bytes, source := s'.source, draws := s'.draws,
               code := .errSource } := by
  rw [setSdu_takesAnswer build empty isSdu room asks read, takeAnswer_bad bad]
  exact ⟨_, rfl⟩

end

/-- Settles O24: the residue is written at SDU_FILL, and a write leaves the bytes below it alone. -/
theorem sourceErrorCommitsNothing : Obligations.SourceErrorCommitsNothing := by
  intro lcid req s s' ans build empty isSdu room mx asks read bad
  obtain ⟨bytes, ran⟩ := setSdu_sourceFailed build empty isSdu room asks read bad
  exact ⟨_, ran, fun a below => s.sdubuf.read_writeN_other s.sduFill a bytes (.inl below)⟩

/-- Settles O23: the checks in order, then one clause for each kind of answer. -/
theorem setSduFollowsItsChecks : Obligations.SetSduFollowsItsChecks := by
  intro lcid req s grow space mx
  refine ⟨fun other => unless_building other _, setSdu_noEmptySlot, setSdu_otherLcid, setSdu_noRoom,
    setSdu_asksNothing, ?_⟩
  intro build empty isSdu room asks ans asked
  have fails (bad : BadAnswer mx (sourceRead lcid mx s).1) :
      ∃ t, exec (.setSdu lcid req) s = .next t ∧ t.code = .errSource := by
    obtain ⟨bytes, ran⟩ := setSdu_sourceFailed build empty isSdu room asks rfl bad
    exact ⟨_, ran, rfl⟩
  have takes : exec (.setSdu lcid req) s = takeAnswer lcid mx (sourceRead lcid mx s).1 asked :=
    setSdu_takesAnswer build empty isSdu room asks rfl
  exact ⟨fun none => fails (.inl none), fun d some long => fails (.inr ⟨d, some, long⟩),
    fun nothing => takes.trans (takeAnswer_nothing nothing lcid mx asked),
    fun d answer nonempty short canonical fits => ⟨_, Memory.writtenAt_writeN s.sduFill d canonical.1,
      takes.trans (takeAnswer_bytes (s := asked) answer nonempty short fits lcid)⟩⟩

end Sys2Proof.Machine
end

section
/-! PROOFS. The block SERIALIZE lays out (41_container_tx R171 to R178): the padding decision, the subheader list with
its bytes, and what SERIALIZE ends with. -/

namespace Sys2Proof.Machine

/-! ### Padding -/

theorem hsize_eq (n : Nat) : hsize n = 2 ∨ hsize n = 3 := by
  unfold hsize
  split
  · exact .inl rfl
  · exact .inr rfl

theorem headerGrowth_le (s : State) : headerGrowth s ≤ 2 := by
  unfold headerGrowth
  split
  · exact Nat.zero_le 2
  · next k _ => have := hsize_eq (slotAt s k).len; omega

/-- A padding need above 2 takes one multi-byte padding subheader, the growth of the last SDU's header and zeros. -/
theorem padding_multi {s : State} (need : 2 < s.remLen) :
    multiPad s = true ∧ padOnes s = 0 ∧ padZeros s + 1 + headerGrowth s = s.remLen := by
  have multi : multiPad s = true := decide_eq_true need
  have growth := headerGrowth_le s
  simp only [padOnes, padZeros, multi, if_true, true_and]
  omega

/-- A padding need of at most 2 takes that many single-byte paddings. -/
theorem padding_single {s : State} (need : s.remLen ≤ 2) :
    multiPad s = false ∧ padOnes s = s.remLen ∧ padZeros s = 0 := by
  have single : multiPad s = false := decide_eq_false (Nat.not_lt_of_le need)
  simp [padOnes, padZeros, single]

/-- Settles O25: the two cases of the padding need. -/
theorem paddingDecision : Obligations.PaddingDecision := by
  refine fun s => ⟨padding_multi, fun need => padding_single (by omega), fun none => ?_⟩
  have single := padding_single (s := s) (by omega)
  rwa [none] at single

/-! ### Subheaders -/

/-- The bytes of a subheader that another one follows (41_container_tx R160, R175). -/
def SubEntry.size : SubEntry → Nat
  | .pad1 | .padM | .ce _ => 1
  | .sdu x => hsize x.len

theorem SubEntry.length_bytes_true (e : SubEntry) : (e.bytes true).length = e.size := by
  cases e with
  | pad1 | padM | ce => rfl
  | sdu x =>
    simp only [SubEntry.bytes, SubEntry.size, lengthField, hsize, if_true]
    split <;> rfl

theorem SubEntry.length_bytes_false (e : SubEntry) : (e.bytes false).length = 1 := by
  cases e <;> rfl

theorem headerBytes_concat (es : List SubEntry) (e : SubEntry) :
    headerBytes (es ++ [e]) = es.flatMap (SubEntry.bytes true) ++ e.bytes false := by
  induction es with
  | nil => rfl
  | cons x es ih =>
    have more : headerBytes (x :: (es ++ [e])) = x.bytes true ++ headerBytes (es ++ [e]) := by cases es <;> rfl
    rw [List.cons_append, more, ih, List.flatMap_cons, List.append_assoc]

theorem length_flatMap_bytes (es : List SubEntry) :
    (es.flatMap (SubEntry.bytes true)).length = (es.map SubEntry.size).sum := by
  rw [List.length_flatMap, funext SubEntry.length_bytes_true]

/-- What the last subheader of a list saves, as no length field follows it. -/
def lastSaving (es : List SubEntry) : Nat := es.getLast?.elim 0 fun e => e.size - 1

theorem length_headerBytes (es : List SubEntry) :
    (headerBytes es).length + lastSaving es = (es.map SubEntry.size).sum := by
  induction es using List.reverseRecOn with
  | nil => rfl
  | append_singleton es e _ =>
    have positive : 1 ≤ e.size := by
      cases e with
      | pad1 | padM | ce => exact Nat.le_refl 1
      | sdu x => have := hsize_eq x.len; simp only [SubEntry.size]; omega
    simp only [headerBytes_concat, List.length_append, length_flatMap_bytes, SubEntry.length_bytes_false, lastSaving,
      List.getLast?_concat, Option.elim_some, List.map_append, List.map_singleton, List.sum_append, List.sum_singleton]
    omega

/-- The E bit of a subheader says whether another one follows (41_container_tx R174). -/
theorem headerBytes_eq_mapIdx (es : List SubEntry) :
    headerBytes es = (es.mapIdx fun j x => x.bytes (decide (j + 1 < es.length))).flatten := by
  induction es with
  | nil => rfl
  | cons x es ih =>
    cases es with
    | nil => simp [headerBytes]
    | cons y rest => simpa [headerBytes, List.mapIdx_cons] using ih

theorem subheaderByte_false (lcid : BitVec 5) : subheaderByte false lcid = 0#3 ++ lcid := by
  apply BitVec.eq_of_toNat_eq
  simp [subheaderByte]

theorem lengthField_short {n : Nat} (short : n < 128) : lengthField n = [BitVec.ofNat 8 n] := by
  have octet : 0#1 ++ BitVec.ofNat 7 n = BitVec.ofNat 8 n := by
    refine BitVec.eq_of_toNat_eq ((BitVec.toNat_append _ _).trans ?_)
    simp
    omega
  rw [lengthField, if_pos short, octet]

theorem lengthField_long {n : Nat} (long : 128 ≤ n) (fits : n ≤ 32767) :
    lengthField n = [BitVec.ofNat 8 (128 + n / 256), BitVec.ofNat 8 (n % 256)] := by
  have high : 1#1 ++ (BitVec.ofNat 15 n).extractLsb' 8 7 = BitVec.ofNat 8 (128 + n / 256) := by
    refine BitVec.eq_of_toNat_eq ((BitVec.toNat_append _ _).trans ?_)
    have field : ((BitVec.ofNat 15 n).extractLsb' 8 7).toNat = n / 256 := by
      simp [Nat.shiftRight_eq_div_pow]
      omega
    rw [field, ← Nat.shiftLeft_add_eq_or_of_lt (by omega)]
    simp
    omega
  have low : (BitVec.ofNat 15 n).extractLsb' 0 8 = BitVec.ofNat 8 (n % 256) := by
    apply BitVec.eq_of_toNat_eq
    simp
  rw [lengthField, if_neg (Nat.not_lt_of_le long), high, low]

/-- Settles O26: the list as it is built, E by position, and the length field in its two forms. -/
theorem subheaderLayout : Obligations.SubheaderLayout := by
  refine ⟨fun s => rfl, headerBytes_eq_mapIdx, fun e => ⟨rfl, rfl⟩, fun e x => rfl, fun x => ?_, fun x short => ?_,
    fun x long fits => ?_, fun x => (SubEntry.sdu x).length_bytes_true⟩
  · exact congrArg (fun b => [b]) (subheaderByte_false x.lcid)
  · exact congrArg (_ :: ·) (lengthField_short short)
  · exact congrArg (_ :: ·) (lengthField_long long fits)

/-! ### SERIALIZE -/

theorem serialize_unpopulated {s : State} (build : GeneralBuild s) (unpopulated : ¬ AllPopulated s) :
    OnlyEndsWith .serialize s .errState := by
  have empty : ((slotsInUse s).any fun x => x.kind == .empty) = true := by simpa using unpopulated
  change execSerialize s = _
  rw [execSerialize, (building_general s).mpr build, empty]
  rfl

/-- Settles O27: `serialize_staged` says that the block's bytes are committed, after the check of their length. -/
theorem serializeWritesTheBlock : Obligations.SerializeWritesTheBlock := by
  refine fun s => ⟨fun other => unless_building other _, serialize_unpopulated, fun build populated staged short => ?_,
    fun build populated staged whole fits canonical =>
      ⟨_, Memory.writtenAt_writeN 0 (blockBytes s) canonical.1, ?_⟩⟩
  · rw [serialize_staged build populated staged, commitBlock, if_pos short]
    rfl
  · have inside : (blockBytes s).length = 0 ∨ 0 + (blockBytes s).length ≤ s.cfg.maxTbBytes := by omega
    rw [serialize_staged build populated staged, commitBlock, if_neg (not_not.mpr whole), memWrite_eq _ _ _ _ inside]
    rfl

end Sys2Proof.Machine
end

section
/-! PROOFS. The accounting of a general build (41_container_tx R172): REM_LEN and what the slots take make TOTAL_LEN, and
the block SERIALIZE lays out has exactly that many bytes. -/

namespace Sys2Proof.Machine

/-! ### The ledger's sum -/

/-- What a slot takes of TOTAL_LEN once another SDU follows it: `slotCost` with every SDU header at its non-final size
(41_container_tx R160). -/
def followedCost (c : Config) (x : Slot) : Nat :=
  if x.kind = .empty then 0
  else if x.kind = .sdu then x.len + hsize x.len
  else 1 + ceSize c x.kind

theorem followedCost_empty {c : Config} {x : Slot} (empty : x.kind = .empty) : followedCost c x = 0 := if_pos empty

theorem followedCost_sdu {c : Config} {x : Slot} (sdu : x.kind = .sdu) : followedCost c x = x.len + hsize x.len := by
  simp [followedCost, sdu]

theorem followedCost_ce {c : Config} {x : Slot} (ce : x.kind.isCe = true) :
    followedCost c x = 1 + ceSize c x.kind := by
  have notEmpty : x.kind ≠ .empty := by rintro empty; simp [empty, Kind.isCe] at ce
  have notSdu : x.kind ≠ .sdu := by rintro sdu; simp [sdu, Kind.isCe] at ce
  rw [followedCost, if_neg notEmpty, if_neg notSdu]

/-- The followed costs of the slots below k. -/
def followedSum (s : State) (k : Nat) : Nat := ((List.range k).map fun j => followedCost s.cfg (slotAt s j)).sum

theorem followedSum_succ (s : State) (k : Nat) :
    followedSum s (k + 1) = followedSum s k + followedCost s.cfg (slotAt s k) := by
  simp [followedSum, List.range_succ]

/-- A slot is charged its followed cost, less what the header of the last SDU does not need yet. -/
theorem Charged.rem_add_followedCost {s : State} {k : Nat} (h : Charged s k) :
    (ledgerAt s (k + 1)).rem + followedCost s.cfg (slotAt s k) + growthAt s (ledgerAt s k) =
      (ledgerAt s k).rem + growthAt s (ledgerAt s (k + 1)) := by
  cases h with
  | sdu kind _ _ _ rem last _ =>
    have growth : growthAt s (ledgerAt s (k + 1)) = hsize (slotAt s k).len - 1 := by simp only [growthAt, last]
    have := hsize_eq (slotAt s k).len
    rw [followedCost_sdu kind, growth]
    omega
  | ce kind row hasRow size _ rem last _ =>
    have growth : growthAt s (ledgerAt s (k + 1)) = growthAt s (ledgerAt s k) := by simp only [growthAt, last]
    have own : ceSize s.cfg (slotAt s k).kind = (slotAt s k).len := by simp [ceSize, hasRow, size]
    rw [followedCost_ce kind, growth, own]
    omega

/-- The accounting at each index of a build's ledger. -/
theorem TxOk.rem_add_followedSum {s : State} (h : TxOk s) (build : building .general s = true) {k : Nat}
    (hk : k ≤ s.count) : (ledgerAt s k).rem + followedSum s k = s.totalLen + growthAt s (ledgerAt s k) := by
  obtain ⟨_, start, slots⟩ := h build
  induction k with
  | zero => simp [start, followedSum, growthAt]
  | succ k ih =>
    have before := ih (by omega)
    rw [followedSum_succ]
    rcases (txSlotOk_iff s k).mp (slots k hk) with ⟨empty, _, same⟩ | charged
    · rw [← same, followedCost_empty empty, Nat.add_zero, before]
    · have := charged.rem_add_followedCost
      omega

/-! ### R172's sum -/

theorem headerGrowth_eq_growthAt (s : State) : headerGrowth s = growthAt s (ledgerAt s s.count) := by
  rw [ledgerAt_count]
  rfl

/-- Only the last SDU is charged less than its followed cost: its header has not grown yet. -/
theorem slotCost_add_growth {s : State} (last : LastSduBelow s s.count s.lastSdu) (k : Nat) :
    slotCost s k + (if s.lastSdu = some k then headerGrowth s else 0) = followedCost s.cfg (slotAt s k) := by
  by_cases isLast : s.lastSdu = some k
  · have sdu : (slotAt s k).kind = .sdu := by
      rcases last with ⟨none, _⟩ | ⟨j, some, _, sdu, _⟩
      · simp [none] at isLast
      · cases isLast.symm.trans some
        exact sdu
    have := hsize_eq (slotAt s k).len
    rw [followedCost_sdu sdu]
    simp only [slotCost, sdu, isLast, headerGrowth, reduceCtorEq, if_true, if_false]
    omega
  · rw [if_neg isLast, Nat.add_zero]
    simp only [slotCost, followedCost, if_neg isLast]

/-- The costs of R172 are the followed costs less the growth of the last SDU's header. -/
theorem sum_slotCost_add_growth {s : State} (last : LastSduBelow s s.count s.lastSdu) :
    ((List.range s.count).map (slotCost s)).sum + headerGrowth s = followedSum s s.count := by
  have pointwise : followedSum s s.count =
      ((List.range s.count).map fun k => slotCost s k + if s.lastSdu = some k then headerGrowth s else 0).sum := by
    simp only [slotCost_add_growth last]
    rfl
  have once : ((List.range s.count).map fun k => if s.lastSdu = some k then headerGrowth s else 0).sum =
      headerGrowth s := by
    rcases last with ⟨none, _⟩ | ⟨j, some, lt, _⟩
    · simp [none, headerGrowth]
    · have alone : ∀ k, k ≠ j → k ∈ List.range s.count →
          (if s.lastSdu = .some k then headerGrowth s else 0) = 0 := fun k other _ =>
        if_neg fun named => other (Option.some.inj (named.symm.trans some))
      rw [List.sum_map_eq_nsmul_single j _ alone, if_pos some,
        List.count_eq_one_of_mem List.nodup_range (List.mem_range.mpr lt), one_nsmul]
  rw [pointwise, List.sum_map_add, once]

/-! ### The slots of a block -/

theorem slotsInUse_eq_map {s : State} (inFile : s.count ≤ s.slots.length) :
    slotsInUse s = (List.range s.count).map (slotAt s) := by
  apply List.ext_getElem
  · simpa [slotsInUse] using inFile
  · intro k inUse _
    obtain ⟨_, file⟩ : k < s.count ∧ k < s.slots.length := by simpa [slotsInUse] using inUse
    simp [slotsInUse, slotAt, List.getD, file]

/-- The slot of the last SDU is the last of the SDU slots. -/
theorem LastSduBelow.getLast?_filter {s : State} {n : Nat} {last : Option Nat} (h : LastSduBelow s n last) :
    (((List.range n).map (slotAt s)).filter fun x => x.kind == .sdu).getLast? = last.map (slotAt s) := by
  induction n with
  | zero =>
    cases last with
    | none => rfl
    | some j => exact absurd h.lt (Nat.not_lt_zero j)
  | succ n ih =>
    rw [List.range_succ, List.map_append, List.filter_append]
    by_cases sdu : (slotAt s n).kind = .sdu
    · have isLast : last = some n := by
        rcases h with ⟨_, below⟩ | ⟨j, some, lt, _, after⟩
        · exact absurd sdu (below n n.lt_succ_self)
        · rcases Nat.lt_succ_iff_lt_or_eq.mp lt with lt | rfl
          · exact absurd sdu (after n lt n.lt_succ_self)
          · exact some
      simp [sdu, isLast]
    · have below : LastSduBelow s n last := by
        rcases h with ⟨none, below⟩ | ⟨j, some, lt, kind, after⟩
        · exact .inl ⟨none, fun i hi => below i (by omega)⟩
        · refine .inr ⟨j, some, ?_, kind, fun i h1 h2 => after i h1 (by omega)⟩
          rcases Nat.lt_succ_iff_lt_or_eq.mp lt with lt | rfl
          · exact lt
          · exact absurd kind sdu
      simpa [sdu] using ih below

/-- A payload of a legal table fits a slot's ce field (10_state R37, 30_encoding R110). -/
theorem ceSize_le {c : Config} (ok : c.ok = true) (k : Kind) : ceSize c k ≤ 6 := by
  unfold ceSize
  split
  · next r hasRow =>
    obtain ⟨_, _, size, _⟩ := Config.row_ok ok (kindRow_some hasRow).1
    unfold LcidRow.sizeOk at size
    split at size <;> simp_all
  · exact Nat.zero_le 6

theorem length_cePayloads {c : Config} (ok : c.ok = true) (xs : List Slot) :
    (xs.flatMap fun x => x.ce.toList.take (ceSize c x.kind)).length = (xs.map fun x => ceSize c x.kind).sum := by
  have each : ∀ x : Slot, (x.ce.toList.take (ceSize c x.kind)).length = ceSize c x.kind := fun x =>
    (List.length_take).trans (Nat.min_eq_left (ceSize_le ok x.kind))
  simp only [List.length_flatMap, each]

theorem length_stagedPayloads (s : State) : (stagedPayloads s).length = ((sduSlots s).map Slot.len).sum := by
  simp only [stagedPayloads, List.length_flatMap, Memory.readN_length]

/-- What the slots of a populated build take, split into CE slots and SDU slots. -/
theorem sum_followedCost {c : Config} {xs : List Slot} (populated : ∀ x ∈ xs, x.kind.isCe = true ∨ x.kind = .sdu) :
    (xs.map (followedCost c)).sum =
      ((xs.filter fun x => x.kind.isCe).map fun x => 1 + ceSize c x.kind).sum +
        ((xs.filter fun x => x.kind == .sdu).map fun x => x.len + hsize x.len).sum := by
  induction xs with
  | nil => rfl
  | cons x xs ih =>
    obtain ⟨first, rest⟩ := List.forall_mem_cons.mp populated
    have tail := ih rest
    rcases first with ce | sdu
    · have notSdu : x.kind ≠ .sdu := by rintro sdu; simp [sdu, Kind.isCe] at ce
      simp [ce, notSdu, followedCost_ce ce, tail]
      omega
    · simp [sdu, Kind.isCe, followedCost_sdu sdu, tail]
      omega

/-- The subheaders of a block with a length field after every SDU's. -/
theorem sum_size_subEntries (s : State) :
    ((subEntries s).map SubEntry.size).sum =
      padOnes s + (ceSlots s).length + ((sduSlots s).map fun x => hsize x.len).sum + (if multiPad s then 1 else 0) := by
  have multi : ((if multiPad s then [SubEntry.padM] else []).map SubEntry.size).sum = if multiPad s then 1 else 0 := by
    split <;> rfl
  simp [subEntries, multi, SubEntry.size, Function.comp_def, Nat.add_assoc]

theorem lastSaving_concat (es : List SubEntry) (e : SubEntry) : lastSaving (es ++ [e]) = e.size - 1 := by
  simp [lastSaving]

theorem lastSaving_of_size_one {es : List SubEntry} (one : ∀ e ∈ es, e.size = 1) : lastSaving es = 0 := by
  unfold lastSaving
  cases last : es.getLast? with
  | none => rfl
  | some e => simp [one e (List.mem_of_getLast? last)]

/-- Without multi-byte padding the last SDU's subheader is the last of the block and saves its growth. -/
theorem lastSaving_subEntries {s : State} (last : (sduSlots s).getLast? = s.lastSdu.map (slotAt s)) :
    lastSaving (subEntries s) = if multiPad s then 0 else headerGrowth s := by
  unfold subEntries
  split
  · exact lastSaving_concat _ _
  · rw [List.append_nil]
    cases named : s.lastSdu with
    | none =>
      have noSdu : sduSlots s = [] := by simpa [named] using last
      have noGrowth : headerGrowth s = 0 := by simp [headerGrowth, named]
      rw [noGrowth]
      refine lastSaving_of_size_one fun e listed => ?_
      simp only [noSdu, List.map_nil, List.append_nil, List.mem_append, List.mem_replicate, List.mem_map] at listed
      rcases listed with ⟨_, rfl⟩ | ⟨x, _, rfl⟩ <;> rfl
    | some j => simp [lastSaving, last, named, SubEntry.size, headerGrowth]

/-- The block SERIALIZE lays out takes what REM_LEN and the slots take, the padding filling REM_LEN. -/
theorem length_blockBytes_add_growth {s : State} (ok : s.cfg.ok = true)
    (last : (sduSlots s).getLast? = s.lastSdu.map (slotAt s))
    (populated : ∀ x ∈ slotsInUse s, x.kind.isCe = true ∨ x.kind = .sdu) :
    (blockBytes s).length + headerGrowth s = s.remLen + ((slotsInUse s).map (followedCost s.cfg)).sum := by
  have header := length_headerBytes (subEntries s)
  rw [sum_size_subEntries, lastSaving_subEntries last] at header
  rw [sum_followedCost populated, ← ceSlots, ← sduSlots, List.sum_map_add, List.sum_map_add]
  simp only [blockBytes, List.length_append, length_cePayloads ok, length_stagedPayloads, List.length_replicate,
    List.map_const', List.sum_replicate, smul_eq_mul, Nat.mul_one]
  rcases Nat.lt_or_ge 2 s.remLen with need | need
  · obtain ⟨multi, ones, zeros⟩ := padding_multi need
    simp only [multi, ones, if_true] at header
    omega
  · obtain ⟨single, ones, zeros⟩ := padding_single need
    simp only [single, ones, Bool.false_eq_true, if_false] at header
    omega

/-! ### Builds of a run -/

theorem Charge.isCe_or_sdu {c : Config} {k growth : Nat} {x : Slot} {b a : Ledger} (h : Charge c k x growth b a) :
    x.kind.isCe = true ∨ x.kind = .sdu := by
  cases h with
  | sdu kind => exact .inr kind
  | ce kind => exact .inl kind

section
variable {s : State} (h : RunInv s) (build : GeneralBuild s)
include h build

theorem RunInv.lastSduBelow : LastSduBelow s s.count s.lastSdu := by
  obtain ⟨_, _, _, _, _, _, _, tx, _⟩ := h
  have last := tx.lastSduBelow ((building_general s).mpr build) (Nat.le_refl s.count)
  rwa [ledgerAt_count] at last

/-- At COUNT the ledger is the registers: REM_LEN and the followed costs make TOTAL_LEN and one header's growth. -/
theorem RunInv.remLen_add_followedSum : s.remLen + followedSum s s.count = s.totalLen + headerGrowth s := by
  obtain ⟨_, _, _, _, _, _, _, tx, _⟩ := h
  have sum := tx.rem_add_followedSum ((building_general s).mpr build) (Nat.le_refl s.count)
  rwa [← headerGrowth_eq_growthAt, ledgerAt_count] at sum

/-- The block of a populated build has TOTAL_LEN bytes (41_container_tx R172). -/
theorem RunInv.length_blockBytes (populated : AllPopulated s) : (blockBytes s).length = s.totalLen := by
  have ⟨⟨ok, files, _⟩, _, ⟨_, _, counted, _⟩, _, _, _, _, tx, _⟩ := h
  have slots := slotsInUse_eq_map (s := s) (by omega)
  have last : (sduSlots s).getLast? = s.lastSdu.map (slotAt s) := by
    rw [sduSlots, slots]
    exact (h.lastSduBelow build).getLast?_filter
  have kinds : ∀ x ∈ slotsInUse s, x.kind.isCe = true ∨ x.kind = .sdu := by
    intro x inUse
    obtain ⟨k, hk, rfl⟩ := mem_slotsInUse inUse
    have charged := tx.charged ((building_general s).mpr build) hk fun _ => populated _ inUse
    exact Charge.isCe_or_sdu charged
  have block := length_blockBytes_add_growth ok last kinds
  have accounted := h.remLen_add_followedSum build
  have sum : ((slotsInUse s).map (followedCost s.cfg)).sum = followedSum s s.count := by
    rw [slots, List.map_map]
    rfl
  omega

end

/-- Settles O28: each slot's charge keeps REM_LEN plus the followed costs at TOTAL_LEN plus the growth of the last SDU's
header; R172's costs leave that growth out, and so does the block, whose last SDU has no length field or is followed by
the padding that its growth is taken from. -/
theorem transmitAccounting : Obligations.TransmitAccounting := by
  intro s h build
  refine ⟨?_, fun populated => ⟨h.stagedInside build, h.length_blockBytes build populated, h.totalLen_le⟩⟩
  have accounted := h.remLen_add_followedSum build
  have costs := sum_slotCost_add_growth (h.lastSduBelow build)
  omega

end Sys2Proof.Machine
end

section
/-! PROOFS. The SET_ commands of control elements (42_control_elements R200 to R209): the checks and the reservation are
one statement about every command that `ceCommand` lists, and the payloads it encodes are those the rules give. -/

namespace Sys2Proof.Machine

/-! ### The checks and the reservation -/

theorem exec_ceCommand {i : Instr} {kind : Kind} {payload : List Byte} (sets : ceCommand i = some (kind, payload))
    (s : State) : exec i s = setCe kind payload s := by
  cases i with
  | setBsr fmt o0 o1 o2 o3 =>
    obtain ⟨k, format, same⟩ := Option.map_eq_some_iff.mp sets
    cases same
    change execSetBsr fmt o0 o1 o2 o3 s = _
    rw [execSetBsr, format]
  | setPhr | setTa | setCrid | setCrnti =>
    cases sets
    rfl
  | setScell bitmap =>
    have form : scellForm bitmap = (kind, payload) := Option.some.inj sets
    change execSetScell bitmap s = _
    rw [execSetScell, form]
  | _ => cases sets

theorem setCe_noEmptySlot {s : State} (build : GeneralBuild s) (populated : ¬ LastEmpty s) (kind : Kind)
    (payload : List Byte) : setCe kind payload s = .next { s with code := .errState } := by
  have populated : lastSlotEmpty s = false := by simpa using mt (lastSlotEmpty_iff s).mp populated
  rw [setCe, (building_general s).mpr build, populated]
  rfl

section
variable {s : State} (build : GeneralBuild s) (empty : LastEmpty s) {kind : Kind} (payload : List Byte)
include build empty

theorem setCe_noRow (none : kindRow s.cfg kind = none) :
    setCe kind payload s = .next { s with code := .errDirection } := by
  rw [setCe, (building_general s).mpr build, (lastSlotEmpty_iff s).mpr empty, none]
  rfl

theorem setCe_row {row : LcidRow} (some : kindRow s.cfg kind = some row) :
    setCe kind payload s = reserveCe row kind payload s := by
  rw [setCe, (building_general s).mpr build, (lastSlotEmpty_iff s).mpr empty, some]
  rfl

end

/-! ### The kinds a direction can set -/

/-- R200's list of settable kinds is what the default tables have of the kinds the SET_ CE commands encode. -/
theorem defaultRows_isSome_iff (d : Dir) {k : Kind} {n : Nat} (settable : settableSize k = some n) :
    ((defaultLcidTable.rows d).find? fun r => r.kind == k).isSome = true ↔ k ∈ settableKinds d := by
  cases d with
  | dl | ul | mch =>
    cases k with
    | shortBsr | longBsr | truncBsr | phr | crnti | crid | ta | scell1 | scell4 => decide
    | _ => cases settable

theorem kindRow_isSome_iff {c : Config} (default : c.lcid = defaultLcidTable) {i : Instr} {kind : Kind}
    {payload : List Byte} (sets : ceCommand i = some (kind, payload)) :
    (kindRow c kind).isSome = true ↔ kind ∈ settableKinds c.dir := by
  rw [kindRow, Config.rows, default]
  exact defaultRows_isSome_iff c.dir (settableSize_ceCommand sets)

/-- Every SET_ CE command makes the common checks in order and reserves its CE (42_control_elements R200, R201). -/
theorem setsCe_of_ceCommand {s : State} (ok : s.cfg.ok = true) {i : Instr} {kind : Kind} {payload : List Byte}
    (sets : ceCommand i = some (kind, payload)) : SetsCe i kind payload s := by
  unfold SetsCe OnlyEndsWith
  rw [exec_ceCommand sets]
  refine ⟨fun default => kindRow_isSome_iff default sets, fun other => unless_building other _,
    fun build populated => setCe_noEmptySlot build populated kind payload,
    fun build empty none => setCe_noRow build empty payload none, fun row build empty some => ?_⟩
  have size := kindRow_size_eq ok sets some
  rw [setCe_row build empty payload some]
  have reserved := reserveCe_cases row kind payload s
  simp only [size, Option.getD_some, List.take_length] at reserved
  rcases reserved with ⟨full, fails⟩ | ⟨room, reserves⟩
  · exact ⟨size, fun _ => fails, fun room => absurd full (Nat.not_lt_of_le room)⟩
  · exact ⟨size, fun full => absurd full (Nat.not_lt_of_le room), fun _ => reserves⟩

/-- Settles O33: R200's lists are the rows of the default tables, and MCH has no row of a settable kind. -/
theorem settableKindsByDirection : Obligations.SettableKindsByDirection := by
  refine ⟨fun c i kind payload default sets => kindRow_isSome_iff default sets,
    fun i kind payload s default mch sets build empty => ?_⟩
  have none : kindRow s.cfg kind = none := by
    have settable := kindRow_isSome_iff default sets
    simpa [mch, settableKinds] using settable
  exact (exec_ceCommand sets s).trans (setCe_noRow build empty payload none)

/-! ### The payloads -/

theorem IsSelectedGroup.of_drop {occs : List Word} {g : BitVec 2} {occ : Word} (selected : occs[g.toNat]? = some occ)
    (above : ∀ x ∈ occs.drop (g.toNat + 1), x = 0) (zero : occ = 0 → g = 0) : IsSelectedGroup occs g occ := by
  refine ⟨selected, fun j x higher listed => above x ?_, zero⟩
  rw [List.mem_iff_getElem?]
  exact ⟨j - (g.toNat + 1), by rwa [List.getElem?_drop, Nat.add_sub_cancel' higher]⟩

theorem isSelectedGroup_selGroup (o0 o1 o2 o3 : Word) :
    IsSelectedGroup [o0, o1, o2, o3] (selGroup o0 o1 o2 o3).1 (selGroup o0 o1 o2 o3).2 := by
  unfold selGroup
  split
  · next three => exact .of_drop rfl (by simp) (absurd · three)
  · next three =>
    split
    · next two => exact .of_drop rfl (by simpa using three) (absurd · two)
    · next two =>
      split
      · next one => exact .of_drop rfl (by simpa using And.intro two three) (absurd · one)
      · next one => exact .of_drop rfl (by simpa using And.intro one (And.intro two three)) fun _ => rfl

/-- Settles O31: the three formats are SET_ CE commands whose payloads are the packed indices, and `sel_group` is the
selected group. -/
theorem setBsrEncodesOccupancy : Obligations.SetBsrEncodesOccupancy :=
  fun o0 o1 o2 o3 _ ok => ⟨setsCe_of_ceCommand ok rfl,
    ⟨_, _, isSelectedGroup_selGroup o0 o1 o2 o3, setsCe_of_ceCommand ok rfl, setsCe_of_ceCommand ok rfl⟩, rfl⟩

theorem phrPayload_eq (db : BitVec 16) : phrPayload db = [BitVec.ofNat 8 (phIndex db.toInt)] := by
  have fits := phIndex_le_63 db.toInt
  have octet : 0#2 ++ BitVec.ofNat 6 (phIndex db.toInt) = BitVec.ofNat 8 (phIndex db.toInt) := by
    refine BitVec.eq_of_toNat_eq ((BitVec.toNat_append _ _).trans ?_)
    rw [BitVec.toNat_zero, Nat.zero_shiftLeft, Nat.zero_or, toNat_indexField fits, BitVec.toNat_ofNat]
    omega
  exact congrArg (fun b => [b]) octet

/-- Only bits 7:0 of the bitmap are set iff it is below 256. -/
theorem upperBits_eq_zero_iff (b : Word) : b.extractLsb' 8 24 = 0 ↔ b.toNat < 256 := by
  have bits := b.isLt
  have zero : (0 : BitVec 24).toNat = 0 := rfl
  rw [← BitVec.toNat_inj, BitVec.extractLsb'_toNat, Nat.shiftRight_eq_div_pow, zero]
  omega

theorem scellForm_short {bitmap : Word} (short : (clearBit0 bitmap).toNat < 256) :
    scellForm bitmap = (.scell1, octets (clearBit0 bitmap) 1) :=
  if_pos ((upperBits_eq_zero_iff _).mpr short)

theorem scellForm_long {bitmap : Word} (long : 256 ≤ (clearBit0 bitmap).toNat) :
    scellForm bitmap = (.scell4, octets (clearBit0 bitmap) 4) :=
  if_neg (mt (upperBits_eq_zero_iff _).mp (Nat.not_lt_of_le long))

/-- Settles O32: each of the five is a SET_ CE command, and its payload's octets are the fields of the rule. -/
theorem setFixedElementsEncode : Obligations.SetFixedElementsEncode :=
  fun db _ _ _ _ _ ok => ⟨setsCe_of_ceCommand ok (congrArg (fun p => some (Kind.phr, p)) (phrPayload_eq db)),
    setsCe_of_ceCommand ok rfl, setsCe_of_ceCommand ok rfl, setsCe_of_ceCommand ok rfl,
    fun short => setsCe_of_ceCommand ok (congrArg some (scellForm_short short)),
    fun long => setsCe_of_ceCommand ok (congrArg some (scellForm_long long))⟩

end Sys2Proof.Machine
end

section
/-! PROOFS. The GET_ commands of control elements (42_control_elements R211 to R218): the common checks are one
statement about every command that `decodedKinds` lists, and on an entry of its kind a command answers what its rule
reads. -/

namespace Sys2Proof.Machine

/-! ### The common checks -/

/-- Outside a parsed general container the GET_ commands end with ERR_STATE. -/
theorem unless_parsed {s : State} (other : ¬ GeneralParsed s) (r : Result) :
    (if !parsed .general s then fail .errState s else r) = .next { s with code := .errState } := by
  have no : parsed .general s = false := by simpa using mt (parsed_general s).mp other
  rw [no]
  rfl

theorem withEntry_noEntry {s : State} (isParsed : GeneralParsed s) (noEntry : s.cur = none) (decodes : Kind → Bool)
    (k : Slot → Result) : withEntry decodes s k = fail .errState s := by
  simp [withEntry, (parsed_general s).mpr isParsed, noEntry]

theorem withEntry_otherKind {s : State} {c : Nat} (current : CurrentEntry s c) {decodes : Kind → Bool}
    (other : ¬ decodes (slotAt s c).kind = true) (k : Slot → Result) :
    withEntry decodes s k = fail .errState s := by
  obtain ⟨isParsed, cur⟩ := current
  simp [withEntry, (parsed_general s).mpr isParsed, cur, other]

theorem getterChecks_of_withEntry {i : Instr} {s : State} {kinds : List Kind} {decodes : Kind → Bool}
    {k : Slot → Result} (meaning : exec i s = withEntry decodes s k) (fits : ∀ x, decodes x = true ↔ x ∈ kinds) :
    GetterChecks i kinds s := by
  unfold GetterChecks OnlyEndsWith
  rw [meaning]
  exact ⟨fun other => unless_parsed other _, fun isParsed noEntry => withEntry_noEntry isParsed noEntry _ _,
    fun c current other => withEntry_otherKind current (mt (fits _).mp other) _⟩

/-- GET_SDU makes the checks of the other GET_ commands (43_container_rx R252). -/
theorem getSdu_eq_withEntry (s : State) :
    execGetSdu s =
      withEntry (· == .sdu) s fun e => doneWith [word e.off, word e.len, e.lcid.setWidth 32] s := by
  unfold execGetSdu withEntry
  cases s.cur with
  | none => rfl
  | some c => simp only [beq_iff_eq]

/-- A general GET_ command makes the common checks for the kinds it decodes (42_control_elements R211). -/
theorem getterChecks {i : Instr} {kinds : List Kind} (decodes : decodedKinds i = some kinds) (s : State) :
    GetterChecks i kinds s := by
  cases i with
  | getSdu =>
    cases decodes
    exact getterChecks_of_withEntry (getSdu_eq_withEntry s) (by simp)
  | getBsr =>
    cases decodes
    exact getterChecks_of_withEntry (by unfold exec; rfl) (by simp [isBsrKind, or_assoc])
  | getPhr | getTa | getCrid | getCrnti | getScell | getMchSched =>
    cases decodes
    exact getterChecks_of_withEntry (by unfold exec; rfl) (by simp)
  | _ => cases decodes

/-- A GET_ command changes nothing but STATUS.CODE and RESULT registers. -/
theorem Change.eq_of_isGetter {i : Instr} {s u : State} {c : Status} (h : Change s i c u) (getter : isGetter i = true) :
    u = s := by
  cases h with
  | failed | answered => rfl
  | setCe sets =>
    cases i with
    | setBsr | setPhr | setTa | setCrid | setCrnti | setScell => cases getter
    | _ => cases sets
  | serialized serializes | notSerialized serializes => rcases serializes with ⟨_, rfl⟩ | ⟨_, rfl⟩ <;> cases getter
  | _ => cases getter

/-- Settles O34: the checks are those of `withEntry`, and a GET_ command's change is none. -/
theorem gettersCheckTheirEntry : Obligations.GettersCheckTheirEntry := by
  refine ⟨fun i kinds s decodes => getterChecks decodes s, fun i s t getter ran => ?_⟩
  obtain ⟨c, xs, u, change, _, rfl⟩ := exec_change ran
  cases change.eq_of_isGetter getter
  rfl

/-! ### GET_BSR -/

/-- Of a list's entries the first with the largest value (42_control_elements R212). -/
theorem findIdx_largest {l : List (BitVec 6)} {top : Nat} (le : ∀ x ∈ l, x.toNat ≤ top)
    (attained : ∃ x ∈ l, x.toNat = top) :
    let dom := l.findIdx fun x => x.toNat == top
    dom < l.length ∧ (∀ j, j < l.length → (l.getD j 0).toNat ≤ (l.getD dom 0).toNat) ∧
      (∀ j, j < dom → (l.getD j 0).toNat < (l.getD dom 0).toNat) := by
  intro dom
  have found : dom < l.length := by simpa [dom] using attained
  have largest : (l.getD dom 0).toNat = top := by
    rw [List.getD_eq_getElem _ _ found]
    exact beq_iff_eq.mp (List.findIdx_getElem (w := found))
  rw [largest]
  have bounded (j : Nat) (inList : j < l.length) : (l.getD j 0).toNat ≤ top := by
    rw [List.getD_eq_getElem _ _ inList]
    exact le _ (List.getElem_mem inList)
  refine ⟨found, bounded, fun j before => lt_of_le_of_ne (bounded j (before.trans found)) ?_⟩
  rw [List.getD_eq_getElem _ _ (before.trans found)]
  exact ne_of_beq_false (List.not_of_lt_findIdx before)

theorem longBsrFields_dom (p : CeBytes) :
    let f := longBsrFields p
    let l := [f.idx0, f.idx1, f.idx2, f.idx3]
    f.dom < 4 ∧ (∀ j, j < 4 → (l.getD j 0).toNat ≤ (l.getD f.dom 0).toNat) ∧
      (∀ j, j < f.dom → (l.getD j 0).toNat < (l.getD f.dom 0).toNat) := by
  intro f l
  let top := max (max f.idx0.toNat f.idx1.toNat) (max f.idx2.toNat f.idx3.toNat)
  have attained : f.idx0.toNat = top ∨ f.idx1.toNat = top ∨ f.idx2.toNat = top ∨ f.idx3.toNat = top := by omega
  exact findIdx_largest (l := l) (top := top) (by simp [l, top]) (by simpa [l] using attained)

/-- What GET_BSR answers for the fields of a BSR (42_control_elements R212). -/
def bsrAnswer (c : Config) (f : BsrFields) : Results :=
  ⟨word (bsValue c f.idx0), word (bsValue c f.idx1), word (bsValue c f.idx2), word (bsValue c f.idx3), word f.dom,
    f.idx0.setWidth 32, f.idx1.setWidth 32, f.idx2.setWidth 32, f.idx3.setWidth 32⟩

section
variable {s : State} {c : Nat} (current : CurrentEntry s c)
include current

theorem getBsr_long (kind : (slotAt s c).kind = .longBsr) :
    exec .getBsr s =
      .next { s with results := bsrAnswer s.cfg (longBsrFields (slotAt s c).ce), code := .ok } := by
  change execGetBsr s = _
  rw [execGetBsr, withEntry_current current (by simp [isBsrKind, kind]), if_pos kind]
  rfl

theorem getBsr_oneGroup (kind : (slotAt s c).kind = .shortBsr ∨ (slotAt s c).kind = .truncBsr) :
    exec .getBsr s =
      .next { s with results := bsrAnswer s.cfg (oneGroupBsrFields (slotAt s c).ce), code := .ok } := by
  have notLong : (slotAt s c).kind ≠ .longBsr := by rcases kind with kind | kind <;> simp [kind]
  have fits : isBsrKind (slotAt s c).kind = true := by rcases kind with kind | kind <;> simp [isBsrKind, kind]
  change execGetBsr s = _
  rw [execGetBsr, withEntry_current current fits, if_neg notLong]
  rfl

/-! ### The other GET_ commands -/

theorem getPhr_eq (kind : (slotAt s c).kind = .phr) :
    exec .getPhr s =
      doneWith [BitVec.ofInt 32 (phValue ((slotAt s c).ce.c0.extractLsb' 0 6)),
        ((slotAt s c).ce.c0.extractLsb' 0 6).setWidth 32] s := by
  change execGetPhr s = _
  rw [execGetPhr, withEntry_current current (by simp [kind])]

theorem getTa_eq (kind : (slotAt s c).kind = .ta) :
    exec .getTa s =
      doneWith [((slotAt s c).ce.c0.extractLsb' 0 6).setWidth 32,
        ((slotAt s c).ce.c0.extractLsb' 6 2).setWidth 32] s := by
  change execGetTa s = _
  rw [execGetTa, withEntry_current current (by simp [kind])]

theorem getCrid_eq (kind : (slotAt s c).kind = .crid) :
    exec .getCrid s =
      doneWith [((slotAt s c).ce.c0 ++ (slotAt s c).ce.c1).setWidth 32,
        (slotAt s c).ce.c2 ++ (slotAt s c).ce.c3 ++ (slotAt s c).ce.c4 ++ (slotAt s c).ce.c5] s := by
  change execGetCrid s = _
  rw [execGetCrid, withEntry_current current (by simp [kind])]

theorem getCrnti_eq (kind : (slotAt s c).kind = .crnti) :
    exec .getCrnti s = doneWith [((slotAt s c).ce.c0 ++ (slotAt s c).ce.c1).setWidth 32] s := by
  change execGetCrnti s = _
  rw [execGetCrnti, withEntry_current current (by simp [kind])]

theorem getScell_short (kind : (slotAt s c).kind = .scell1) :
    exec .getScell s = doneWith [clearBit0 ((slotAt s c).ce.c0.setWidth 32), 1] s := by
  change execGetScell s = _
  rw [execGetScell, withEntry_current current (by simp [kind]), if_pos kind]

theorem getScell_long (kind : (slotAt s c).kind = .scell4) :
    exec .getScell s =
      doneWith [clearBit0 ((slotAt s c).ce.c0 ++ (slotAt s c).ce.c1 ++ (slotAt s c).ce.c2 ++ (slotAt s c).ce.c3), 4]
        s := by
  change execGetScell s = _
  rw [execGetScell, withEntry_current current (by simp [kind]), if_neg (by simp [kind])]

theorem getMchSched_eq (kind : (slotAt s c).kind = .mchSched) (k : BitVec 16) :
    exec (.getMchSched k) s =
      if (slotAt s c).len / 2 ≤ k.toNat then fail .errIllegal s
      else orFault (memRead s.cfg s.rxbuf ((slotAt s c).off + 2 * k.toNat) 2) fun w =>
        let v : BitVec 16 := byteAt w 0 ++ byteAt w 1
        doneWith [v.setWidth 32, (v.extractLsb' 11 5).setWidth 32, (v.extractLsb' 0 11).setWidth 32,
          word ((slotAt s c).len / 2)] s := by
  change execGetMchSched k s = _
  rw [execGetMchSched, withEntry_current current (by simp [kind])]

end

/-- Settles O35: a Long BSR's dominant group is the first with the largest index; the two cases are GET_BSR's. -/
theorem getBsrDecodes : Obligations.GetBsrDecodes := by
  refine ⟨getterChecks rfl, fun s c current => ⟨fun long => ?_, getBsr_oneGroup current⟩⟩
  obtain ⟨dominant, largest, first⟩ := longBsrFields_dom (slotAt s c).ce
  exact ⟨_, dominant, largest, first, getBsr_long current long⟩

theorem setWidth_two_octets (x y : Byte) : (x ++ y).setWidth 32 = 0#16 ++ x ++ y := by
  rw [BitVec.setWidth_eq_append (by decide), BitVec.append_assoc]

theorem setWidth_octet (x : Byte) : x.setWidth 32 = 0#24 ++ x := BitVec.setWidth_eq_append (by decide)

/-- Settles O36: each command's reading, with the octets below zeros written as a 32-bit value. -/
theorem getFixedElementsDecode : Obligations.GetFixedElementsDecode := by
  refine ⟨fun s =>
      ⟨getterChecks rfl s, getterChecks rfl s, getterChecks rfl s, getterChecks rfl s, getterChecks rfl s⟩,
    fun s c current => ⟨getPhr_eq current, getTa_eq current, fun kind => ?_, fun kind => ?_, fun kind => ?_,
      getScell_long current⟩⟩
  · rw [getCrid_eq current kind, setWidth_two_octets]
    rfl
  · rw [getCrnti_eq current kind, setWidth_two_octets]
    rfl
  · rw [getScell_short current kind, setWidth_octet]
    rfl

/-- Settles O37: past the check of k the two bytes are inside RXBUF and are read from it. -/
theorem getMchSchedReadsRxbuf : Obligations.GetMchSchedReadsRxbuf := by
  refine ⟨fun k => getterChecks rfl, fun s c k current kind => ⟨fun beyond => ?_, fun listed inside => ?_⟩⟩
  · exact (getMchSched_eq current kind k).trans (if_pos beyond)
  · rw [getMchSched_eq current kind, if_neg (Nat.not_le_of_lt listed), memRead_eq _ _ _ _ (.inr inside)]
    rfl

end Sys2Proof.Machine
end

section
/-! PROOFS. A control element read back (42_control_elements R202 to R217): the fields a GET_ command takes from the
payload a SET_ command wrote are the values the payload was made of. -/

namespace Sys2Proof.Machine

/-! ### Octets put together again -/

/-- The octet below a field joins it. -/
theorem append_octet {w : Nat} (v : BitVec w) (low n : Nat) :
    v.extractLsb' (low + 8) n ++ v.extractLsb' low 8 = v.extractLsb' low (n + 8) :=
  BitVec.extractLsb'_append_extractLsb'_eq_extractLsb' rfl

theorem append_octets_two {w : Nat} (v : BitVec w) (low : Nat) :
    v.extractLsb' (low + 8) 8 ++ v.extractLsb' low 8 = v.extractLsb' low 16 := append_octet v low 8

theorem append_octets_three {w : Nat} (v : BitVec w) (low : Nat) :
    v.extractLsb' (low + 16) 8 ++ v.extractLsb' (low + 8) 8 ++ v.extractLsb' low 8 = v.extractLsb' low 24 := by
  rw [append_octets_two v (low + 8), append_octet]

theorem append_octets_four {w : Nat} (v : BitVec w) (low : Nat) :
    v.extractLsb' (low + 24) 8 ++ v.extractLsb' (low + 16) 8 ++ v.extractLsb' (low + 8) 8 ++ v.extractLsb' low 8 =
      v.extractLsb' low 32 := by
  rw [append_octets_three v (low + 8), append_octet]

/-! ### Power headroom -/

theorem phValue_clamps (v : Int) : phValue (BitVec.ofNat 6 (phIndex v)) = min (max v (-23)) 40 := by
  rw [phValue, toNat_indexField (phIndex_le_63 v), phIndex_eq, Int.add_sub_cancel]

/-- A headroom value fits the RESULT register that carries it (42_control_elements R213). -/
theorem toInt_phValue (i : BitVec 6) : (BitVec.ofInt 32 (phValue i)).toInt = phValue i := by
  obtain ⟨low, high⟩ := phValue_range i
  rw [BitVec.toInt_ofInt, Int.bmod_eq_of_le (by omega) (by omega)]

/-! ### The SCell bitmap -/

theorem clearBit0_clearBit0 (bitmap : Word) : clearBit0 (clearBit0 bitmap) = clearBit0 bitmap := by
  rw [clearBit0, clearBit0, BitVec.and_assoc, BitVec.and_self]

/-- A value below 256 is its low octet. -/
theorem setWidth_lowOctet {b : Word} (short : b.toNat < 256) : (b.extractLsb' 0 8).setWidth 32 = b := by
  refine BitVec.eq_of_toNat_eq ?_
  rw [BitVec.toNat_setWidth, BitVec.extractLsb'_toNat, Nat.shiftRight_zero]
  omega

/-! ### Buffer status -/

theorem setWidth_bsIndexBits (occ : Word) : (bsIndexBits occ).setWidth 32 = word (bsIndex occ.toNat) := by
  refine BitVec.eq_of_toNat_eq ?_
  have fits := bsIndex_le_63 occ.toNat
  rw [BitVec.toNat_setWidth, bsIndexBits, toNat_indexField fits, word, BitVec.toNat_ofNat]

theorem extractLsb'_four_fields (a b c d : BitVec 6) :
    (a ++ b ++ c ++ d).extractLsb' 18 6 = a ∧ (a ++ b ++ c ++ d).extractLsb' 12 6 = b ∧
      (a ++ b ++ c ++ d).extractLsb' 6 6 = c ∧ (a ++ b ++ c ++ d).extractLsb' 0 6 = d := by
  have skip {v : Nat} (x : BitVec v) (y : BitVec 6) (k : Nat) : (x ++ y).extractLsb' (k + 6) 6 = x.extractLsb' k 6 :=
    BitVec.extractLsb'_append_eq_of_le (Nat.le_add_left 6 k)
  exact ⟨(skip _ d 12).trans ((skip _ c 6).trans BitVec.extractLsb'_append_eq_left),
    (skip _ d 6).trans ((skip _ c 0).trans BitVec.extractLsb'_append_eq_right),
    (skip _ d 0).trans BitVec.extractLsb'_append_eq_right, BitVec.extractLsb'_append_eq_right⟩

/-- The four indices of a Long BSR's payload (30_encoding R113). -/
theorem longBsrFields_payload (o0 o1 o2 o3 : Word) :
    let f := longBsrFields (CeBytes.ofList (longBsrPayload o0 o1 o2 o3))
    f.idx0 = bsIndexBits o0 ∧ f.idx1 = bsIndexBits o1 ∧ f.idx2 = bsIndexBits o2 ∧ f.idx3 = bsIndexBits o3 := by
  let fields : BitVec 24 := bsIndexBits o0 ++ bsIndexBits o1 ++ bsIndexBits o2 ++ bsIndexBits o3
  have packed : fields.extractLsb' 16 8 ++ fields.extractLsb' 8 8 ++ fields.extractLsb' 0 8 = fields :=
    (append_octets_three fields 0).trans BitVec.extractLsb'_eq_self
  have field (k : Nat) : (fields.extractLsb' 16 8 ++ fields.extractLsb' 8 8 ++ fields.extractLsb' 0 8).extractLsb' k 6 =
      fields.extractLsb' k 6 := congrArg (·.extractLsb' k 6) packed
  obtain ⟨f0, f1, f2, f3⟩ :=
    extractLsb'_four_fields (bsIndexBits o0) (bsIndexBits o1) (bsIndexBits o2) (bsIndexBits o3)
  exact ⟨(field 18).trans f0, (field 12).trans f1, (field 6).trans f2, (field 0).trans f3⟩

/-- The group and the index of a Short or Truncated BSR's octet (30_encoding R112). -/
theorem oneGroupBsrFields_octet {p : CeBytes} {g : BitVec 2} {i : BitVec 6} (octet : p.c0 = g ++ i) :
    let f := oneGroupBsrFields p
    f.dom = g.toNat ∧
      ∀ j, j < 4 → [f.idx0, f.idx1, f.idx2, f.idx3].getD j 0 = if j = g.toNat then i else 0 := by
  have group : p.c0.extractLsb' 6 2 = g := by rw [octet]; exact BitVec.extractLsb'_append_eq_left
  have index : p.c0.extractLsb' 0 6 = i := by rw [octet]; exact BitVec.extractLsb'_append_eq_right
  refine ⟨congrArg BitVec.toNat group, fun j less => ?_⟩
  rw [← group, ← index]
  interval_cases j <;> rfl

theorem setWidth_oneIndex (p : Prop) [Decidable p] (occ : Word) :
    (if p then bsIndexBits occ else 0).setWidth 32 = if p then word (bsIndex occ.toNat) else 0 := by
  rw [apply_ite (BitVec.setWidth 32), setWidth_bsIndexBits]
  rfl

/-- A SET_BSR with a format other than Long encodes the selected group in one octet. -/
theorem oneGroupBsr_of_ceCommand {fmt : BitVec 2} {o0 o1 o2 o3 : Word} {kind : Kind} {payload : List Byte}
    (notLong : fmt ≠ 1) (sets : ceCommand (.setBsr fmt o0 o1 o2 o3) = some (kind, payload)) :
    (kind = .shortBsr ∨ kind = .truncBsr) ∧ payload = oneGroupBsrPayload o0 o1 o2 o3 := by
  obtain ⟨k, format, same⟩ := Option.map_eq_some_iff.mp sets
  cases same
  unfold bsrKind at format
  split_ifs at format
  · cases format
    exact ⟨.inl rfl, rfl⟩
  · cases format
    exact ⟨.inr rfl, rfl⟩

/-! ### Each getter on what its SET_ command wrote -/

section
variable {s : State} {c : Nat} (current : CurrentEntry s c)
include current

theorem getPhr_of_setPhr {db : BitVec 16} (kind : (slotAt s c).kind = .phr)
    (ce : (slotAt s c).ce = CeBytes.ofList (phrPayload db)) :
    ∃ t, exec .getPhr s = .next t ∧ t.results.r0.toInt = min (max db.toInt (-23)) 40 := by
  refine ⟨_, getPhr_eq current kind, ?_⟩
  change (BitVec.ofInt 32 (phValue ((slotAt s c).ce.c0.extractLsb' 0 6))).toInt = _
  rw [toInt_phValue, ce, ← phValue_clamps]
  exact congrArg phValue (extractLsb'_zero_append _)

theorem getTa_of_setTa {ta : BitVec 6} (kind : (slotAt s c).kind = .ta)
    (ce : (slotAt s c).ce = CeBytes.ofList (taPayload ta)) :
    ∃ t, exec .getTa s = .next t ∧ t.results.r0 = ta.setWidth 32 ∧ t.results.r1 = 0 := by
  refine ⟨_, getTa_eq current kind, ?_⟩
  rw [ce]
  exact ⟨congrArg (BitVec.setWidth 32) (extractLsb'_zero_append ta),
    congrArg (BitVec.setWidth 32) (BitVec.extractLsb'_append_eq_left (a := 0#2) (b := ta))⟩

theorem getCrid_of_setCrid {crid : BitVec 48} (kind : (slotAt s c).kind = .crid)
    (ce : (slotAt s c).ce = CeBytes.ofList (octets crid 6)) :
    ∃ t, exec .getCrid s = .next t ∧ t.results.r0 = (crid.extractLsb' 32 16).setWidth 32 ∧
      t.results.r1 = crid.extractLsb' 0 32 := by
  refine ⟨_, getCrid_eq current kind, ?_⟩
  rw [ce]
  exact ⟨congrArg (BitVec.setWidth 32) (append_octets_two crid 32), append_octets_four crid 0⟩

theorem getCrnti_of_setCrnti {rnti : BitVec 16} (kind : (slotAt s c).kind = .crnti)
    (ce : (slotAt s c).ce = CeBytes.ofList (octets rnti 2)) :
    ∃ t, exec .getCrnti s = .next t ∧ t.results.r0 = rnti.setWidth 32 := by
  refine ⟨_, getCrnti_eq current kind, ?_⟩
  rw [ce]
  exact congrArg (BitVec.setWidth 32) ((append_octets_two rnti 0).trans BitVec.extractLsb'_eq_self)

theorem getScell_of_setScell {bitmap : Word} (kind : (slotAt s c).kind = (scellForm bitmap).1)
    (ce : (slotAt s c).ce = CeBytes.ofList (scellForm bitmap).2) :
    ∃ t, exec .getScell s = .next t ∧ t.results.r0 = clearBit0 bitmap := by
  rcases Nat.lt_or_ge (clearBit0 bitmap).toNat 256 with short | long
  · rw [scellForm_short short] at kind ce
    refine ⟨_, getScell_short current kind, ?_⟩
    rw [ce]
    exact (congrArg clearBit0 (setWidth_lowOctet short)).trans (clearBit0_clearBit0 bitmap)
  · rw [scellForm_long long] at kind ce
    refine ⟨_, getScell_long current kind, ?_⟩
    have whole := (append_octets_four (clearBit0 bitmap) 0).trans BitVec.extractLsb'_eq_self
    rw [ce]
    exact (congrArg clearBit0 whole).trans (clearBit0_clearBit0 bitmap)

theorem getBsr_of_setLongBsr {o0 o1 o2 o3 : Word} (kind : (slotAt s c).kind = .longBsr)
    (ce : (slotAt s c).ce = CeBytes.ofList (longBsrPayload o0 o1 o2 o3)) :
    ∃ t, exec .getBsr s = .next t ∧
      [t.results.r5, t.results.r6, t.results.r7, t.results.r8] =
        [o0, o1, o2, o3].map fun o => word (bsIndex o.toNat) := by
  refine ⟨_, getBsr_long current kind, ?_⟩
  obtain ⟨i0, i1, i2, i3⟩ := longBsrFields_payload o0 o1 o2 o3
  simp only [bsrAnswer, ce, i0, i1, i2, i3, setWidth_bsIndexBits, List.map]

theorem getBsr_of_setOneGroupBsr {o0 o1 o2 o3 : Word}
    (kind : (slotAt s c).kind = .shortBsr ∨ (slotAt s c).kind = .truncBsr)
    (ce : (slotAt s c).ce = CeBytes.ofList (oneGroupBsrPayload o0 o1 o2 o3)) :
    ∃ t, exec .getBsr s = .next t ∧
      ∃ g occ, IsSelectedGroup [o0, o1, o2, o3] g occ ∧ t.results.r4 = g.setWidth 32 ∧
        ∀ j : Nat, j < 4 → [t.results.r5, t.results.r6, t.results.r7, t.results.r8].getD j 0 =
          if j = g.toNat then word (bsIndex occ.toNat) else 0 := by
  let f := oneGroupBsrFields (slotAt s c).ce
  refine ⟨_, getBsr_oneGroup current kind, _, _, isSelectedGroup_selGroup o0 o1 o2 o3, ?_⟩
  obtain ⟨group, indices⟩ := oneGroupBsrFields_octet (congrArg CeBytes.c0 ce)
  refine ⟨(congrArg word group).trans (BitVec.ofNat_toNat 32 _), fun j less => ?_⟩
  rw [← setWidth_oneIndex, ← indices j less]
  exact List.getD_map [f.idx0, f.idx1, f.idx2, f.idx3] 0 (BitVec.setWidth 32)

end

/-- Settles O38: the command says which payload the entry holds, and its getter reads that payload. -/
theorem controlElementRoundTrip : Obligations.ControlElementRoundTrip := by
  intro s c i kind payload current sets isKind isCe
  refine ⟨?_, ?_, ?_, ?_, ?_, ?_, ?_⟩
  · rintro db rfl
    cases sets
    exact getPhr_of_setPhr current isKind isCe
  · rintro ta rfl
    cases sets
    exact getTa_of_setTa current isKind isCe
  · rintro crid rfl
    cases sets
    exact getCrid_of_setCrid current isKind isCe
  · rintro rnti rfl
    cases sets
    exact getCrnti_of_setCrnti current isKind isCe
  · rintro bitmap rfl
    have form : scellForm bitmap = (kind, payload) := Option.some.inj sets
    exact getScell_of_setScell current (by rw [form, isKind]) (by rw [form, isCe])
  · rintro o0 o1 o2 o3 rfl
    cases sets
    exact getBsr_of_setLongBsr current isKind isCe
  · rintro fmt o0 o1 o2 o3 notLong rfl
    obtain ⟨oneGroup, rfl⟩ := oneGroupBsr_of_ceCommand notLong sets
    exact getBsr_of_setOneGroupBsr current (isKind ▸ oneGroup) isCe

end Sys2Proof.Machine
end

section
/-! PROOFS. The subheader walk and the wire grammar (43_container_rx R241 to R245, 30_encoding R98 to R104): the
subheaders of a block are read one from the other's end, and what the walk reads of one is what the grammar says. -/

namespace Sys2Proof.Machine

/-! ### The length field of a non-final subheader -/

theorem octet_getLsbD_seven (o : Byte) : o.getLsbD 7 = decide (128 ≤ o.toNat) := BitVec.msb_eq_decide o

theorem octet_low_seven (o : Byte) : (o.extractLsb' 0 7).toNat = o.toNat % 128 := by
  simp

theorem two_octet_length {h : Byte} (long : 128 ≤ h.toNat) (l : Byte) :
    (h.extractLsb' 0 7 ++ l).toNat = (h.toNat - 128) * 256 + l.toNat := by
  rw [BitVec.toNat_append, ← Nat.shiftLeft_add_eq_or_of_lt l.isLt, octet_low_seven, Nat.shiftLeft_eq]
  omega

/-- A length field of a payload of `len` bytes: one octet below 128, or two with the first one's top bit set
(30_encoding R99, R100). -/
def LengthField (len : Nat) (tail : List Byte) : Prop :=
  (∃ l : Byte, tail = [l] ∧ l.toNat < 128 ∧ len = l.toNat) ∨
  (∃ h l : Byte, tail = [h, l] ∧ 128 ≤ h.toNat ∧ len = (h.toNat - 128) * 256 + l.toNat)

theorem nonFinalLength_short {l : Byte} (short : l.toNat < 128) (rest : List Byte) :
    nonFinalLength .sdu (l :: rest) = some (l.toNat, 2, rest) := by
  have top : l.getLsbD 7 = false := by simpa only [octet_getLsbD_seven, decide_eq_false_iff_not, Nat.not_le] using short
  simp only [nonFinalLength, top, octet_low_seven, Nat.mod_eq_of_lt short]
  rfl

theorem nonFinalLength_long {h : Byte} (long : 128 ≤ h.toNat) (l : Byte) (rest : List Byte) :
    nonFinalLength .sdu (h :: l :: rest) = some ((h.toNat - 128) * 256 + l.toNat, 3, rest) := by
  have top : h.getLsbD 7 = true := by simpa only [octet_getLsbD_seven, decide_eq_true_eq] using long
  simp only [nonFinalLength, top, two_octet_length long]
  rfl

/-- The block ends inside the length field. -/
theorem nonFinalLength_cut {h : Byte} (long : 128 ≤ h.toNat) : nonFinalLength .sdu [h] = none := by
  have top : h.getLsbD 7 = true := by simpa only [octet_getLsbD_seven, decide_eq_true_eq] using long
  simp only [nonFinalLength, top]
  rfl

/-- The walk reads a length field where its class has one. -/
theorem nonFinalLength_field_iff {cls : LcidClass} (field : HasLengthField cls) {rest rest' : List Byte} {len n : Nat} :
    nonFinalLength cls rest = some (len, n, rest') ↔
      ∃ tail, rest = tail ++ rest' ∧ n = tail.length + 1 ∧ LengthField len tail := by
  have meaning : nonFinalLength cls rest = nonFinalLength .sdu rest := by
    rcases field with rfl | ⟨k, rfl⟩ <;> rfl
  rw [meaning]
  constructor
  · intro found
    rcases rest with _ | ⟨o, rest⟩
    · cases found
    rcases Nat.lt_or_ge o.toNat 128 with short | long
    · cases (nonFinalLength_short short rest).symm.trans found
      exact ⟨[o], rfl, rfl, .inl ⟨o, rfl, short, rfl⟩⟩
    rcases rest with _ | ⟨l, rest⟩
    · cases (nonFinalLength_cut long).symm.trans found
    · cases (nonFinalLength_long long l rest).symm.trans found
      exact ⟨[o, l], rfl, rfl, .inr ⟨o, l, rfl, long, rfl⟩⟩
  · rintro ⟨_, rfl, rfl, ⟨l, rfl, short, rfl⟩ | ⟨h, l, rfl, long, rfl⟩⟩
    · exact nonFinalLength_short short rest'
    · exact nonFinalLength_long long l rest'

/-! ### One subheader -/

theorem subheaderOf_nonFinal_iff {e : Entry} {o : Byte} {tail : List Byte} :
    SubheaderOf e false (o :: tail) ↔
      o.extractLsb' 0 5 = e.lcid ∧ o.getLsbD 5 = true ∧
        (HasLengthField e.cls → LengthField e.len tail) ∧ (¬ HasLengthField e.cls → tail = []) := by
  simp [SubheaderOf, LengthField]

theorem subheaderOf_final_iff {e : Entry} {hdr : List Byte} :
    SubheaderOf e true hdr ↔ ∃ o : Byte, hdr = [o] ∧ o.extractLsb' 0 5 = e.lcid ∧ o.getLsbD 5 = false := by
  simp [SubheaderOf]

theorem EntryFits.eq_of_lcid {c : Config} {e : Entry} {final : Bool} (fits : EntryFits c e final) {lcid : BitVec 5}
    (same : lcid = e.lcid) : ∃ len, e = ⟨classOf c lcid, lcid, len⟩ := by
  obtain ⟨cls, _, len⟩ := e
  cases same
  obtain ⟨own, _⟩ := fits
  exact ⟨len, congrArg (Entry.mk · _ len) own⟩

/-- The walk reads a non-final subheader iff the grammar has it and the entry fits. -/
theorem nonFinalLength_iff {c : Config} {o : Byte} (more : o.getLsbD 5 = true) {rest rest' : List Byte} {len n : Nat} :
    nonFinalLength (classOf c (o.extractLsb' 0 5)) rest = some (len, n, rest') ↔
      ∃ tail, rest = tail ++ rest' ∧ n = tail.length + 1 ∧
        SubheaderOf ⟨classOf c (o.extractLsb' 0 5), o.extractLsb' 0 5, len⟩ false (o :: tail) ∧
        EntryFits c ⟨classOf c (o.extractLsb' 0 5), o.extractLsb' 0 5, len⟩ false := by
  simp only [subheaderOf_nonFinal_iff, more, EntryFits, true_and]
  generalize classOf c (o.extractLsb' 0 5) = cls
  by_cases field : HasLengthField cls
  · rw [nonFinalLength_field_iff field]
    rcases field with rfl | ⟨k, rfl⟩ <;> simp [HasLengthField]
  · cases cls with
    | sdu => exact absurd (.inl rfl) field
    | var k => exact absurd (.inr ⟨k, rfl⟩) field
    | fixed | pad =>
      simp only [nonFinalLength, HasLengthField]
      constructor
      · rintro ⟨⟩
        exact ⟨[], by simp⟩
      · rintro ⟨tail, rfl, rfl, ⟨_, bare⟩, fits⟩
        cases bare (by simp)
        simp_all
    | reserved => simp [nonFinalLength]

/-- The walk ends with a final subheader iff the entry fits and the lengths sum to the block's. -/
theorem finalLength_iff {c : Config} {lcid : BitVec 5} {total hlen sum len : Nat} :
    finalLength (classOf c lcid) total hlen sum = some len ↔
      EntryFits c ⟨classOf c lcid, lcid, len⟩ true ∧ hlen + sum + len = total := by
  simp only [EntryFits, true_and]
  generalize classOf c lcid = cls
  cases cls with
  | fixed k size =>
    suffices hlen + sum + size = total ∧ size = len ↔ len = size ∧ hlen + sum + len = total by simpa [finalLength]
    omega
  | reserved => simp [finalLength]
  | sdu | var | pad => simp [finalLength]; omega

/-! ### The subheaders of a block -/

/-- `hdr` is the subheaders of these entries, one after the other, the last one final (43_container_rx R241). -/
inductive HeadersOf (c : Config) : List Entry → List Byte → Prop
  | final {e : Entry} {hdr : List Byte} (sub : SubheaderOf e true hdr) (fits : EntryFits c e true) :
      HeadersOf c [e] hdr
  | more {e : Entry} {es : List Entry} {hdr later : List Byte} (sub : SubheaderOf e false hdr)
      (fits : EntryFits c e false) (rest : HeadersOf c es later) : HeadersOf c (e :: es) (hdr ++ later)

theorem HeadersOf.ne_nil {c : Config} {es : List Entry} {hdr : List Byte} (h : HeadersOf c es hdr) : es ≠ [] := by
  cases h <;> simp

theorem HeadersOf.bytes_ne_nil {c : Config} {es : List Entry} {hdr : List Byte} (h : HeadersOf c es hdr) :
    hdr ≠ [] := by
  cases h with
  | final sub | more sub =>
    obtain ⟨o, rest, rfl, _⟩ := sub
    exact List.cons_ne_nil _ _

/-- The grammar lists the same subheaders by their index. -/
theorem headersOf_iff {c : Config} {es : List Entry} {hdr : List Byte} :
    HeadersOf c es hdr ↔
      1 ≤ es.length ∧ ∃ hdrs : List (List Byte), hdrs.length = es.length ∧ hdrs.flatten = hdr ∧
        ∀ j e sub, es[j]? = some e → hdrs[j]? = some sub →
          SubheaderOf e (decide (j + 1 = es.length)) sub ∧ EntryFits c e (decide (j + 1 = es.length)) := by
  constructor
  · intro h
    induction h with
    | final sub fits =>
      refine ⟨Nat.le_refl 1, [_], rfl, List.flatten_singleton, ?_⟩
      rintro (_ | j) e _ ⟨⟩ ⟨⟩
      exact ⟨sub, fits⟩
    | @more e es hdr later sub fits rest ih =>
      obtain ⟨_, hdrs, counted, rfl, each⟩ := ih
      refine ⟨Nat.succ_pos _, hdr :: hdrs, congrArg (· + 1) counted, rfl, ?_⟩
      rintro (_ | j) e' sub' entry header
      · cases entry
        cases header
        have notLast : decide (0 + 1 = (e :: es).length) = false := by simp [rest.ne_nil]
        rw [notLast]
        exact ⟨sub, fits⟩
      · simpa using each j e' sub' entry header
  · rintro ⟨nonempty, hdrs, counted, rfl, each⟩
    induction es generalizing hdrs with
    | nil => cases nonempty
    | cons e es ih =>
      rcases hdrs with _ | ⟨sub, hdrs⟩
      · cases counted
      obtain ⟨sub, fits⟩ := each 0 e sub rfl rfl
      rcases es with _ | ⟨e', es⟩
      · cases List.eq_nil_of_length_eq_zero (Nat.succ.inj counted)
        rw [List.flatten_singleton]
        exact .final sub fits
      · exact .more sub fits (ih (Nat.succ_pos _) _ (Nat.succ.inj counted) fun j e sub entry header => by
          simpa using each (j + 1) e sub entry header)

/-- The walk, when it ends, has read the subheaders of its entries. -/
theorem walkSubheaders_headersOf {c : Config} {total room : Nat} {bytes : List Byte} {pos sum : Nat} {w : Walk}
    (found : walkSubheaders c total room bytes pos sum = some w) :
    ∃ hdr rest, bytes = hdr ++ rest ∧ w.hlen = pos + hdr.length ∧ HeadersOf c w.entries hdr := by
  induction room generalizing bytes pos sum w with
  | zero => cases bytes <;> cases found
  | succ room ih =>
    rcases bytes with _ | ⟨o, rest⟩
    · cases found
    simp only [walkSubheaders] at found
    split at found
    · next more =>
      split at found
      · cases found
      · next len n rest' read =>
        obtain ⟨tail, walked, rfl⟩ := Option.map_eq_some_iff.mp found
        obtain ⟨octets, rfl, rfl, sub, fits⟩ := (nonFinalLength_iff more).mp read
        obtain ⟨hdr, rest, rfl, hlen, headers⟩ := ih walked
        refine ⟨o :: octets ++ hdr, rest, by simp, ?_, .more sub fits headers⟩
        simp [Walk.push, hlen]
        omega
    · next last =>
      split at found
      · cases found
      · next len read =>
        cases found
        obtain ⟨fits, _⟩ := finalLength_iff.mp read
        exact ⟨[o], rest, rfl, rfl, .final (subheaderOf_final_iff.mpr ⟨o, rfl, rfl, by simpa using last⟩) fits⟩

/-- The walk reads the subheaders of a block whose lengths sum to the block's. -/
theorem HeadersOf.walkSubheaders {c : Config} {es : List Entry} {hdr : List Byte} (h : HeadersOf c es hdr)
    {total room pos sum : Nat} (rest : List Byte) (fits : es.length ≤ room)
    (sums : pos + hdr.length + sum + (es.map Entry.len).sum = total) :
    walkSubheaders c total room (hdr ++ rest) pos sum = some ⟨es, pos + hdr.length⟩ := by
  induction h generalizing room pos sum with
  | @final e hdr sub entry =>
    obtain ⟨room, rfl⟩ : ∃ r, room = r + 1 := ⟨room - 1, by simp at fits; omega⟩
    obtain ⟨o, rfl, lcid, last⟩ := subheaderOf_final_iff.mp sub
    obtain ⟨len, rfl⟩ := entry.eq_of_lcid lcid
    have read := finalLength_iff.mpr ⟨entry, by simpa using sums⟩
    simp only [List.cons_append, Machine.walkSubheaders, last, read]
    rfl
  | @more e es hdr later sub entry headers ih =>
    obtain ⟨room, rfl⟩ : ∃ r, room = r + 1 := ⟨room - 1, by simp at fits; omega⟩
    obtain ⟨o, octets, rfl, _⟩ := id sub
    obtain ⟨lcid, more, _⟩ := subheaderOf_nonFinal_iff.mp sub
    obtain ⟨len, rfl⟩ := entry.eq_of_lcid lcid
    have read := (nonFinalLength_iff (rest' := later ++ rest) more).mpr ⟨octets, rfl, rfl, sub, entry⟩
    have walked := ih (room := room) (pos := pos + (octets.length + 1)) (sum := sum + len) (by simpa using fits)
      (by simp at sums; omega)
    simp only [List.cons_append, List.append_assoc, Machine.walkSubheaders, more, read, walked]
    simp [Walk.push]
    omega

/-! ### The block -/

/-- The grammar of a block, with its subheaders read one after the other. -/
theorem blockOf_iff {c : Config} {bytes : List Byte} {es : List Entry} {hlen : Nat} :
    BlockOf c bytes es hlen ↔
      es.length ≤ c.maxSubpdus + 2 ∧ (∃ hdr rest, bytes = hdr ++ rest ∧ hlen = hdr.length ∧ HeadersOf c es hdr) ∧
        hlen + (es.map Entry.len).sum = bytes.length := by
  constructor
  · rintro ⟨hdrs, counted, nonempty, fits, flat, length, each, sums⟩
    refine ⟨fits, ⟨hdrs.flatten, bytes.drop hlen, ?_, length.symm, ?_⟩, sums⟩
    · rw [flat, List.take_append_drop]
    · exact headersOf_iff.mpr ⟨nonempty, hdrs, counted, rfl, each⟩
  · rintro ⟨fits, ⟨hdr, rest, rfl, rfl, headers⟩, sums⟩
    obtain ⟨nonempty, hdrs, counted, rfl, each⟩ := headersOf_iff.mp headers
    exact ⟨hdrs, counted, nonempty, fits, List.take_left.symm, rfl, each, sums⟩

/-- Settles O39: the walk reads the subheaders of its entries one after the other, and of every block that has them it
reads just these. -/
theorem parseAcceptsExactlyTheGrammar : Obligations.ParseAcceptsExactlyTheGrammar := by
  intro c bytes es h nonempty
  rw [blockOf_iff, parseBlock, if_neg (mt List.eq_nil_of_length_eq_zero nonempty)]
  constructor
  · intro found
    obtain ⟨fits, _, sums⟩ := walkSubheaders_some found
    obtain ⟨hdr, rest, split, hlen, headers⟩ := walkSubheaders_headersOf found
    exact ⟨fits, ⟨hdr, rest, split, by simpa using hlen, headers⟩, by simpa using sums⟩
  · rintro ⟨fits, ⟨hdr, rest, rfl, rfl, headers⟩, sums⟩
    simpa using headers.walkSubheaders (pos := 0) (sum := 0) rest fits (by simpa using sums)

end Sys2Proof.Machine
end

section
/-! PROOFS. The commands of a received general container (43_container_rx R241 to R252): PARSE of a block of the wire
grammar, of no bytes and of any other block, ITER_NEXT, and GET_SDU. -/

namespace Sys2Proof.Machine

/-! ### PARSE -/

/-- What PARSE finds in a block of any length: no entries in a block of no bytes, else the grammar's (R241, R246). -/
theorem parseBlock_eq_some_iff {c : Config} {bytes : List Byte} {es : List Entry} {h : Nat} :
    parseBlock c bytes = some ⟨es, h⟩ ↔
      (bytes = [] ∧ es = [] ∧ h = 0) ∨ (bytes ≠ [] ∧ BlockOf c bytes es h) := by
  rcases eq_or_ne bytes [] with rfl | nonempty
  · simp [parseBlock, eq_comm]
  · simp [parseAcceptsExactlyTheGrammar c bytes es h nonempty, nonempty]

/-- The bytes of the block a receive container holds (R241). -/
def receivedBytes (s : State) : List Byte := s.rxbuf.readN 0 s.totalLen

theorem receivedBytes_eq_nil_iff (s : State) : receivedBytes s = [] ↔ s.totalLen = 0 := by
  rw [receivedBytes, ← List.length_eq_zero_iff, Memory.readN_length]

section
variable {s : State} (receives : receiving .general s = true) (fits : s.totalLen ≤ s.cfg.maxTbBytes)
include receives fits

/-- PARSE inside the buffer ends by what the walk finds. -/
theorem exec_parse :
    exec .parse s =
      (parseBlock s.cfg (receivedBytes s)).elim (parseCorrupt s) fun w => parseCommit (receivedBytes s) w s := by
  have read : memRead s.cfg s.rxbuf 0 s.totalLen = some (receivedBytes s) :=
    memRead_eq _ _ _ _ (.inr ((Nat.zero_add _).symm ▸ fits))
  simp only [exec, execParse, receives, read, orFault_some]
  cases parseBlock s.cfg (receivedBytes s) <;> rfl

/-- PARSE commits what the walk finds (R247). -/
theorem exec_parse_found {es : List Entry} {h : Nat} (found : parseBlock s.cfg (receivedBytes s) = some ⟨es, h⟩) :
    exec .parse s = .next
      { s with slots := commitEntries (receivedBytes s) es h s.slots, count := es.length, corrupt := false,
               mode := .rxParsed, iter := 0, cur := none,
               results := { s.results with r0 := word es.length, r1 := word h }, code := .ok } := by
  rw [exec_parse receives fits, found]
  rfl

end

theorem Memory.readN_getElem? (m : Memory) (a n k : Nat) :
    (m.readN a n)[k]? = if k < n then some (m.read (a + k)) else none := by
  induction n generalizing a k with
  | zero => rfl
  | succ n ih =>
    cases k with
    | zero => rfl
    | succ k => simp [Memory.readN, ih, Nat.add_assoc, Nat.add_comm 1 k]

/-- A part of what was read is what a read of that part gives. -/
theorem Memory.take_drop_readN (m : Memory) (a : Nat) {n k l : Nat} (inside : k + l ≤ n) :
    ((m.readN a n).drop k).take l = m.readN (a + k) l := by
  apply List.ext_getElem?
  intro j
  simp only [List.getElem?_take, List.getElem?_drop, Memory.readN_getElem?]
  split
  · rw [if_pos (by omega), Nat.add_assoc]
  · rfl

/-- An entry's payload lies inside the block, behind the subheaders and the payloads before it (R247). -/
theorem entry_inside {es : List Entry} {h j total : Nat} {e : Entry} (sums : h + (es.map Entry.len).sum = total)
    (entry : es[j]? = some e) : h + ((es.take j).map Entry.len).sum + e.len ≤ total := by
  obtain ⟨listed, rfl⟩ := List.getElem?_eq_some_iff.mp entry
  have := sum_take_add_le es listed
  omega

/-- Settles O40: PARSE commits what the walk finds, and of a block of the grammar that is its entries. -/
theorem parseCommitsEntries : Obligations.ParseCommitsEntries := by
  intro s es h receives fits block
  have found : parseBlock s.cfg (receivedBytes s) = some ⟨es, h⟩ := by
    rwa [parseBlock_eq_some_iff, ne_eq, receivedBytes_eq_nil_iff, ← ne_eq, ← Nat.pos_iff_ne_zero]
  refine ⟨_, exec_parse_found receives fits found, rfl, commitEntries_length .., fun j beyond => ?_,
    fun j e entry inFile => ?_⟩
  · rw [commitEntries_getElem?, List.getElem?_eq_none beyond]
    exact Option.map_id'
  · obtain ⟨_, _, sums⟩ := parseBlock_some found
    rw [receivedBytes, Memory.readN_length] at sums
    have payload : ((receivedBytes s).drop (h + ((es.take j).map Entry.len).sum)).take e.len =
        s.rxbuf.readN (h + ((es.take j).map Entry.len).sum) e.len := by
      rw [receivedBytes, Memory.take_drop_readN _ _ (entry_inside sums entry), Nat.zero_add]
    simp only [slotAt, List.getD, commitEntries_getElem?, entry, List.getElem?_eq_getElem inFile, Option.map_some,
      Option.getD_some]
    refine ⟨rfl, rfl, rfl, rfl, ?_⟩
    obtain ⟨cls, lcid, len⟩ := e
    cases cls with
    | fixed => exact congrArg CeBytes.ofList payload
    | sdu | var | pad | reserved => rfl

/-- Settles O41: the walk finds nothing in a block outside the grammar. -/
theorem parseCorruptEmpties : Obligations.ParseCorruptEmpties := by
  intro s
  refine ⟨fun receives nonempty fits other => ?_, fun notReceiving => ?_⟩
  · have nothing : parseBlock s.cfg (receivedBytes s) = none := by
      refine Option.eq_none_iff_forall_ne_some.mpr fun w found => ?_
      rcases parseBlock_eq_some_iff.mp found with ⟨empty, _⟩ | ⟨_, block⟩
      · exact absurd ((receivedBytes_eq_nil_iff s).mp empty) (Nat.ne_of_gt nonempty)
      · exact other _ _ block
    rw [exec_parse receives fits, nothing]
    rfl
  · have no : receiving .general s = false := by simpa using mt (receiving_iff .general s).mp notReceiving
    simp [OnlyEndsWith, exec, execParse, no, fail, State.withCode]

/-- Settles O42: the three checks in order. -/
theorem iterNextReturnsEntries : Obligations.IterNextReturnsEntries := by
  refine fun s => ⟨fun other => unless_parsed other _, fun isParsed ended => ?_, fun isParsed more => ?_⟩
  · simp [OnlyEndsWith, exec, execIterNext, (parsed_general s).mpr isParsed, ended, State.withCode]
  · have go : ¬ s.count ≤ s.iter := Nat.not_le_of_lt more
    simp only [exec, execIterNext, (parsed_general s).mpr isParsed, if_neg go]
    rfl

/-- Settles O43: the checks are those of the GET_ commands, for the kind SDU. -/
theorem getSduLocatesPayload : Obligations.GetSduLocatesPayload := by
  intro s
  obtain ⟨notParsed, noEntry, otherKind⟩ := getterChecks (i := .getSdu) rfl s
  refine ⟨notParsed, noEntry, fun c current other => otherKind c current (by simpa using other),
    fun c current sdu => ?_⟩
  change execGetSdu s = _
  rw [getSdu_eq_withEntry, withEntry_current current (by simp [sdu])]
  rfl

end Sys2Proof.Machine
end

section
/-! PROOFS. What SERIALIZE writes is a block of the wire grammar whose entries are the build's (41_container_tx R173 to
R176), and the slots a PARSE of it commits show the build's CEs and SDUs (43_container_rx R251). -/

namespace Sys2Proof.Machine

/-! ### The entry of a subheader -/

/-- The entry the wire grammar has for a subheader of a build; `zeros` is the payload of multi-byte padding. -/
def SubEntry.entry (zeros : Nat) : SubEntry → Entry
  | .pad1  => ⟨.pad, 31, 0⟩
  | .padM  => ⟨.pad, 31, zeros⟩
  | .ce x  => ⟨.fixed x.kind x.len, x.lcid, x.len⟩
  | .sdu x => ⟨.sdu, x.lcid, x.len⟩

/-- The payload behind the subheaders of a block, the SDUs' from the buffer `m` (R176). -/
def SubEntry.payload (m : Memory) (zeros : Nat) : SubEntry → List Byte
  | .pad1  => []
  | .padM  => List.replicate zeros 0#8
  | .ce x  => x.ce.toList.take x.len
  | .sdu x => m.readN x.off x.len

/-- The slot a subheader stands for, none for padding. -/
def SubEntry.slot? : SubEntry → Option Slot
  | .pad1 | .padM   => none
  | .ce x | .sdu x => some x

/-- What a run's build has in its slots: a CE of a fixed size that its LCID has too, an SDU whose length fits a length
field (30_encoding R100, R110). -/
def SubEntry.Sound (c : Config) : SubEntry → Prop
  | .pad1 | .padM => True
  | .ce x  => x.kind.isCe = true ∧ classOf c x.lcid = .fixed x.kind x.len ∧ ceSize c x.kind = x.len
  | .sdu x => x.kind = .sdu ∧ classOf c x.lcid = .sdu ∧ x.len ≤ 32767

/-- LCID 31 marks padding under every legal table (30_encoding R102). -/
theorem classOf_padding {c : Config} (ok : c.ok = true) : classOf c 31 = .pad := by
  have rows := Config.rows_ok ok
  simp only [lcidRowsOk, Bool.and_eq_true, List.any_eq_true, beq_iff_eq] at rows
  obtain ⟨⟨_, r, hr, padding⟩, _⟩ := rows
  obtain ⟨range, top, _, _, lo⟩ := Config.row_ok ok hr
  have inR : r.lo ≤ (31 : BitVec 5).toNat ∧ (31 : BitVec 5).toNat ≤ r.hi := by
    have := lo padding
    change r.lo ≤ 31 ∧ 31 ≤ r.hi
    omega
  rw [classOf_eq_cls ok hr inR, LcidRow.cls, padding]

theorem LcidRow.cls_of_isCe {r : LcidRow} (ce : r.kind.isCe = true) {n : Nat} (size : r.size = some n) :
    r.cls = .fixed r.kind n := by
  obtain ⟨lo, hi, kind, _⟩ := r
  cases size
  cases kind with
  | empty | sdu | padding | rarBackoff | rarGrant => cases ce
  | _ => rfl

/-! ### The subheaders -/

theorem subheaderByte_fields (e : Bool) (lcid : BitVec 5) :
    (subheaderByte e lcid).extractLsb' 0 5 = lcid ∧ (subheaderByte e lcid).getLsbD 5 = e := by
  have all : ∀ lcid : BitVec 5, (subheaderByte e lcid).extractLsb' 0 5 = lcid ∧
      (subheaderByte e lcid).getLsbD 5 = e := by
    cases e <;> decide
  exact all lcid

/-- The length field SERIALIZE writes is one of the grammar's two forms (30_encoding R100). -/
theorem lengthField_lengthField {n : Nat} (fits : n ≤ 32767) : LengthField n (lengthField n) := by
  rcases Nat.lt_or_ge n 128 with short | long
  · refine .inl ⟨BitVec.ofNat 8 n, lengthField_short short, ?_⟩
    simp
    omega
  · refine .inr ⟨_, _, lengthField_long long fits, ?_⟩
    simp
    omega

section
variable {c : Config} {x : SubEntry} (sound : x.Sound c) (zeros : Nat)
include sound

/-- A subheader SERIALIZE writes is one of its entry. -/
theorem SubEntry.Sound.subheaderOf_final : SubheaderOf (x.entry zeros) true (x.bytes false) := by
  refine subheaderOf_final_iff.mpr ?_
  cases x <;> exact ⟨_, rfl, subheaderByte_fields _ _⟩

theorem SubEntry.Sound.subheaderOf_nonFinal : SubheaderOf (x.entry zeros) false (x.bytes true) := by
  cases x with
  | pad1 | padM | ce =>
    exact subheaderOf_nonFinal_iff.mpr
      ⟨(subheaderByte_fields _ _).1, (subheaderByte_fields _ _).2, by simp [SubEntry.entry, HasLengthField], fun _ => rfl⟩
  | sdu x =>
    obtain ⟨_, _, fits⟩ := sound
    exact subheaderOf_nonFinal_iff.mpr
      ⟨(subheaderByte_fields _ _).1, (subheaderByte_fields _ _).2, fun _ => lengthField_lengthField fits,
        fun noField => absurd (.inl rfl) noField⟩

/-- Its entry fits the table, unless multi-byte padding is not the last subheader. -/
theorem SubEntry.Sound.entryFits (ok : c.ok = true) {final : Bool} (last : x = .padM → final = true) :
    EntryFits c (x.entry zeros) final := by
  cases x with
  | pad1 => exact ⟨(classOf_padding ok).symm, nofun, nofun, fun _ _ => rfl⟩
  | padM => exact ⟨(classOf_padding ok).symm, nofun, nofun, fun _ notFinal => by simp [last rfl] at notFinal⟩
  | ce x =>
    obtain ⟨_, cls, _⟩ := sound
    exact ⟨cls.symm, nofun, fun k n same => by cases same; rfl, nofun⟩
  | sdu x =>
    obtain ⟨_, cls, _⟩ := sound
    exact ⟨cls.symm, nofun, nofun, nofun⟩

theorem SubEntry.Sound.length_payload (ok : c.ok = true) (m : Memory) :
    (x.payload m zeros).length = (x.entry zeros).len := by
  cases x with
  | pad1 => rfl
  | padM => exact List.length_replicate
  | ce x =>
    obtain ⟨_, _, size⟩ := sound
    exact List.length_take.trans (Nat.min_eq_left (size ▸ ceSize_le ok x.kind))
  | sdu x => exact Memory.readN_length ..

end

/-- The subheaders SERIALIZE writes are those of the entries, E = 1 on all but the last (R174). -/
theorem headersOf_headerBytes {c : Config} (ok : c.ok = true) (zeros : Nat) {xs : List SubEntry} (nonempty : xs ≠ [])
    (sound : ∀ x ∈ xs, x.Sound c) (last : .padM ∉ xs.dropLast) :
    HeadersOf c (xs.map (SubEntry.entry zeros)) (headerBytes xs) := by
  induction xs with
  | nil => exact absurd rfl nonempty
  | cons x xs ih =>
    obtain ⟨first, others⟩ := List.forall_mem_cons.mp sound
    cases xs with
    | nil => exact .final (first.subheaderOf_final zeros) (first.entryFits zeros ok fun _ => rfl)
    | cons y rest =>
      obtain ⟨notPad, later⟩ : ¬ SubEntry.padM = x ∧ .padM ∉ (y :: rest).dropLast := by simpa using last
      exact .more (first.subheaderOf_nonFinal zeros) (first.entryFits zeros ok fun pad => absurd pad.symm notPad)
        (ih (List.cons_ne_nil _ _) others later)

/-! ### What a slot of the parse shows -/

theorem CeBytes.toList_ofList (bytes : List Byte) :
    (CeBytes.ofList bytes).toList = (List.range 6).map fun j => bytes.getD j 0 := rfl

/-- A payload of at most six octets is what the ce field holds of it (10_state R37). -/
theorem CeBytes.take_toList_ofList {bytes : List Byte} (fits : bytes.length ≤ 6) :
    (CeBytes.ofList bytes).toList.take bytes.length = bytes := by
  rw [toList_ofList, ← List.map_take, List.take_range, Nat.min_eq_left fits]
  apply List.ext_getElem
  · simp
  · intro j _ inside
    simp [inside]

theorem Entry.slot_ce_fixed (k : Kind) (n len off : Nat) (lcid : BitVec 5) (bytes : List Byte) (old : Slot) :
    (Entry.slot ⟨.fixed k n, lcid, len⟩ bytes off old).ce = CeBytes.ofList ((bytes.drop off).take len) := rfl

/-- The slot of a CE or SDU entry shows what the build's slot does, its payload being where the block has it (R247). -/
theorem SubEntry.Sound.entryView_slot {c : Config} (ok : c.ok = true) {x : SubEntry} (sound : x.Sound c) {y : Slot}
    (slot : x.slot? = some y) {zeros n : Nat} {m m' : Memory} {before after : List Byte}
    (block : m.readN 0 n = before ++ (x.payload m' zeros ++ after)) (old : Slot) :
    entryView m ((x.entry zeros).slot (m.readN 0 n) before.length old) = entryView m' y := by
  have length := sound.length_payload zeros ok m'
  have inside : before.length + (x.entry zeros).len ≤ n := by
    have := congrArg List.length block
    simp at this
    omega
  have part : ((m.readN 0 n).drop before.length).take (x.entry zeros).len = x.payload m' zeros := by
    rw [block, List.drop_left, ← length, List.take_left]
  cases x with
  | pad1 | padM => cases slot
  | ce x =>
    cases slot
    obtain ⟨ce, _, _⟩ := sound
    have notSdu : y.kind ≠ .sdu := by rintro sdu; simp [sdu, Kind.isCe] at ce
    have fits : (y.ce.toList.take y.len).length ≤ 6 := List.length_take_le' _ _
    have held := CeBytes.take_toList_ofList fits
    change (y.ce.toList.take y.len).length = y.len at length
    change ((m.readN 0 n).drop before.length).take y.len = y.ce.toList.take y.len at part
    rw [length] at held
    simp only [entryView, SubEntry.entry, Entry.slot_ce_fixed, part]
    simp only [Entry.slot, LcidClass.kind, if_neg notSdu, held]
  | sdu x =>
    cases slot
    obtain ⟨sdu, _, _⟩ := sound
    rw [Memory.take_drop_readN _ _ inside, Nat.zero_add] at part
    change m.readN before.length y.len = m'.readN y.off y.len at part
    simp [entryView, SubEntry.entry, Entry.slot, LcidClass.kind, sdu, part]

/-- Only padding has no slot. -/
theorem SubEntry.Sound.kind_eq_padding_iff {c : Config} {x : SubEntry} (sound : x.Sound c) (zeros : Nat) :
    (x.entry zeros).cls.kind = .padding ↔ x.slot? = none := by
  cases x with
  | pad1 | padM => exact ⟨fun _ => rfl, fun _ => rfl⟩
  | ce x =>
    obtain ⟨ce, _, _⟩ := sound
    have notPadding : x.kind ≠ .padding := by rintro padding; simp [padding, Kind.isCe] at ce
    simpa [SubEntry.entry, SubEntry.slot?, LcidClass.kind] using notPadding
  | sdu x => simp [SubEntry.entry, SubEntry.slot?, LcidClass.kind]

/-- The slots that a PARSE of a build's payloads commits, padding aside, show the build's CEs and SDUs in the block's
order. -/
theorem view_commitEntries {c : Config} (ok : c.ok = true) {m m' : Memory} {n zeros : Nat} {xs : List SubEntry}
    (sound : ∀ x ∈ xs, x.Sound c) {old : List Slot} (room : xs.length ≤ old.length) {before : List Byte}
    (block : m.readN 0 n = before ++ xs.flatMap (SubEntry.payload m' zeros)) :
    (((commitEntries (m.readN 0 n) (xs.map (SubEntry.entry zeros)) before.length old).take xs.length).filter
        fun x => decide (x.kind ≠ .padding)).map (entryView m) =
      (xs.filterMap SubEntry.slot?).map (entryView m') := by
  induction xs generalizing old before with
  | nil => rfl
  | cons x xs ih =>
    obtain ⟨first, others⟩ := List.forall_mem_cons.mp sound
    rcases old with _ | ⟨o, old⟩
    · cases room
    have rest := ih others (Nat.le_of_succ_le_succ room) (before := before ++ x.payload m' zeros) (by simp [block])
    rw [List.length_append, first.length_payload zeros ok] at rest
    have kind := first.kind_eq_padding_iff zeros
    rw [List.flatMap_cons] at block
    cases slot : x.slot? with
    | none =>
      have padding : ((x.entry zeros).slot (m.readN 0 n) before.length o).kind = .padding := kind.mpr slot
      simpa [commitEntries, padding, slot] using rest
    | some y =>
      have notPadding : ((x.entry zeros).slot (m.readN 0 n) before.length o).kind ≠ .padding :=
        fun padding => by cases slot.symm.trans (kind.mp padding)
      have view := first.entryView_slot ok slot block o
      simpa [commitEntries, notPadding, slot, view] using rest

/-! ### The block of a build -/

/-- A charged CE has its row's LCID and size, a charged SDU a length that its field holds. -/
theorem Charge.sound {c : Config} (ok : c.ok = true) {k growth : Nat} {x : Slot} {b a : Ledger}
    (h : Charge c k x growth b a) :
    (x.kind.isCe = true → (SubEntry.ce x).Sound c) ∧ (x.kind = .sdu → (SubEntry.sdu x).Sound c) := by
  cases h with
  | sdu kind lcid len =>
    obtain ⟨_, fits⟩ := len
    exact ⟨fun ce => by simp [kind, Kind.isCe] at ce, fun _ => ⟨kind, (isSduLcid_iff c x.lcid).mp lcid, fits⟩⟩
  | ce kind row hasRow size lcid =>
    obtain ⟨_, own⟩ := kindRow_some hasRow
    have cls : classOf c x.lcid = .fixed x.kind x.len := by
      rw [← lcid, classOf_kindRow ok hasRow, LcidRow.cls_of_isCe (own ▸ kind) size, own]
    exact ⟨fun _ => ⟨kind, cls, by simp [ceSize, hasRow, size]⟩, fun sdu => by simp [sdu, Kind.isCe] at kind⟩

theorem filterMap_slot?_subEntries (s : State) :
    (subEntries s).filterMap SubEntry.slot? = ceSlots s ++ sduSlots s := by
  have ones : (List.replicate (padOnes s) SubEntry.pad1).filterMap SubEntry.slot? = [] := by
    simp [List.filterMap_eq_nil_iff, SubEntry.slot?]
  have multi : (if multiPad s then [SubEntry.padM] else []).filterMap SubEntry.slot? = [] := by
    split <;> rfl
  simp only [subEntries, List.filterMap_append, ones, multi, List.filterMap_map, List.nil_append, List.append_nil]
  exact congrArg₂ (· ++ ·) List.filterMap_some List.filterMap_some

/-- Multi-byte padding is the last subheader, if it is one at all (R173). -/
theorem padM_not_mem_dropLast (s : State) : .padM ∉ (subEntries s).dropLast := by
  unfold subEntries
  split
  · rw [List.dropLast_concat]
    simp
  · intro listed
    simpa using List.mem_of_mem_dropLast listed

/-- A block has at most two subheaders more than its build has slots (92 D5). -/
theorem length_subEntries_le (s : State) : (subEntries s).length ≤ s.count + 2 := by
  have inUse : (slotsInUse s).length ≤ s.count := List.length_take_le _ _
  have slots := List.length_eq_length_filter_add (l := slotsInUse s) fun x => x.kind.isCe
  have sdus : (sduSlots s).length ≤ ((slotsInUse s).filter fun x => !x.kind.isCe).length := by
    refine (List.monotone_filter_right _ fun x sdu => ?_).length_le
    simp [eq_of_beq sdu, Kind.isCe]
  have padding : padOnes s + (if multiPad s then 1 else 0) ≤ 2 := by
    rcases Nat.lt_or_ge 2 s.remLen with need | need
    · obtain ⟨multi, ones, _⟩ := padding_multi need
      simp [multi, ones]
    · obtain ⟨single, ones, _⟩ := padding_single need
      simpa [single, ones] using need
  have multi : (if multiPad s then [SubEntry.padM] else []).length = if multiPad s then 1 else 0 := by
    split <;> rfl
  simp only [subEntries, List.length_append, List.length_replicate, List.length_map, multi]
  unfold ceSlots
  omega

section
variable {s : State} (h : RunInv s) (build : GeneralBuild s) (populated : AllPopulated s)
include h build populated

/-- The slots of a run's build are as its ledger charged them (R166, 42_control_elements R201). -/
theorem RunInv.sound_subEntries : ∀ x ∈ subEntries s, x.Sound s.cfg := by
  have ⟨⟨ok, _⟩, _, _, _, _, _, _, tx, _⟩ := h
  have charged : ∀ x ∈ slotsInUse s,
      (x.kind.isCe = true → (SubEntry.ce x).Sound s.cfg) ∧ (x.kind = .sdu → (SubEntry.sdu x).Sound s.cfg) := by
    intro x inUse
    obtain ⟨k, hk, rfl⟩ := mem_slotsInUse inUse
    exact Charge.sound ok (tx.charged ((building_general s).mpr build) hk fun _ => populated _ inUse)
  intro x listed
  simp only [subEntries, List.mem_append, List.mem_replicate, List.mem_map] at listed
  rcases listed with ((⟨_, rfl⟩ | ⟨y, isCe, rfl⟩) | ⟨y, isSdu, rfl⟩) | padding
  · trivial
  · obtain ⟨inUse, ce⟩ : y ∈ slotsInUse s ∧ y.kind.isCe = true := by simpa [ceSlots] using isCe
    exact (charged y inUse).1 ce
  · obtain ⟨inUse, sdu⟩ : y ∈ slotsInUse s ∧ y.kind = .sdu := by simpa [sduSlots] using isSdu
    exact (charged y inUse).2 sdu
  · split at padding
    · cases List.mem_singleton.mp padding
      trivial
    · cases padding

/-- The block has the payloads of its subheaders in their order (R176). -/
theorem RunInv.blockBytes_eq : blockBytes s = headerBytes (subEntries s) ++
    (subEntries s).flatMap (SubEntry.payload s.sdubuf (padZeros s)) := by
  have sizes : ((ceSlots s).flatMap fun x => x.ce.toList.take (ceSize s.cfg x.kind)) =
      (ceSlots s).flatMap fun x => x.ce.toList.take x.len := by
    refine List.flatMap_congr fun x listed => ?_
    have ⟨_, _, size⟩ := h.sound_subEntries build populated (.ce x) (by simp [subEntries, listed])
    rw [size]
  have ones : (List.replicate (padOnes s) SubEntry.pad1).flatMap (SubEntry.payload s.sdubuf (padZeros s)) = [] := by
    simp [SubEntry.payload]
  have multi : (if multiPad s then [SubEntry.padM] else []).flatMap (SubEntry.payload s.sdubuf (padZeros s)) =
      List.replicate (padZeros s) 0#8 := by
    split
    · exact List.flatMap_singleton ..
    · next single => simp [padZeros, single]
  simp only [blockBytes, sizes, stagedPayloads, subEntries, List.flatMap_append, ones, multi, List.flatMap_map,
    SubEntry.payload, List.nil_append, List.append_assoc]

theorem RunInv.sum_entry_len : ((subEntries s).map fun x => (x.entry (padZeros s)).len).sum =
    ((subEntries s).flatMap (SubEntry.payload s.sdubuf (padZeros s))).length := by
  have ⟨⟨ok, _⟩, _⟩ := h
  rw [List.length_flatMap]
  exact congrArg List.sum (List.map_congr_left fun x listed =>
    ((h.sound_subEntries build populated x listed).length_payload _ ok _).symm)

/-- PARSE finds the entries of the build in the block SERIALIZE lays out. -/
theorem RunInv.parseBlock_blockBytes : parseBlock s.cfg (blockBytes s) =
    some ⟨(subEntries s).map (SubEntry.entry (padZeros s)), (headerBytes (subEntries s)).length⟩ := by
  have block := h.blockBytes_eq build populated
  refine parseBlock_eq_some_iff.mpr ?_
  rcases eq_or_ne (subEntries s) [] with none | nonempty
  · exact .inl (by rw [block, none]; exact ⟨rfl, rfl, rfl⟩)
  · have ⟨⟨ok, _⟩, _, _, _, _, _, _, tx, _⟩ := h
    have headers := headersOf_headerBytes ok (padZeros s) nonempty (h.sound_subEntries build populated)
      (padM_not_mem_dropLast s)
    have ⟨slots, _⟩ := tx ((building_general s).mpr build)
    have counted := length_subEntries_le s
    have sums := h.sum_entry_len build populated
    refine .inr ⟨?_, blockOf_iff.mpr ⟨?_, ⟨_, _, block, rfl, headers⟩, ?_⟩⟩
    · simp [block, headers.bytes_ne_nil]
    · rw [List.length_map]
      omega
    · rw [block, List.length_append, List.map_map, ← sums]
      rfl

end

/-! ### SERIALIZE, the copy, INIT_RX and PARSE -/

/-- What was written reads back. -/
theorem readN_of_writtenAt {old m : Memory} {a : Nat} {bytes : List Byte} (written : WrittenAt old m a bytes) :
    m.readN a bytes.length = bytes := by
  apply List.ext_getElem?
  intro j
  rw [Memory.readN_getElem?]
  split
  · next inside =>
    have read := written (a + j)
    rw [if_pos (by omega), Nat.add_sub_cancel_left, List.getD_eq_getElem _ _ inside] at read
    rw [read, List.getElem?_eq_getElem inside]
  · next beyond => exact (List.getElem?_eq_none (Nat.le_of_not_lt beyond)).symm

/-- INIT_RX of a length that fits the buffers (R240). -/
theorem exec_initRx {s : State} (ok : s.cfg.ok = true) {n : Nat} (fits : n ≤ s.cfg.maxTbBytes) :
    exec (.initRx (word n)) s = .next ((s.initContainer .general .rxReady false n 0).withCode .ok) := by
  have bound : s.cfg.maxTbBytes ≤ 2 ^ 24 := by
    simp only [Config.ok, Bool.and_eq_true, decide_eq_true_eq] at ok
    omega
  have size : (word n).toNat = n := (BitVec.toNat_ofNat ..).trans (Nat.mod_eq_of_lt (by omega))
  have ⟨_, starts⟩ := initCommandsStartAContainer false (word n) s
  obtain ⟨_, started, _⟩ := starts (by rwa [size])
  rw [started, size]
  rfl

section
variable {s : State} (h : RunInv s) (build : GeneralBuild s) (populated : AllPopulated s)
include h build populated

/-- What SERIALIZE leaves of a run's build: its parameters and slots, and its block in TXBUF (R176 to R178). -/
theorem RunInv.serialized {t : State} (ran : exec .serialize s = .next t) :
    t.cfg = s.cfg ∧ t.slots = s.slots ∧ t.txbuf.readN 0 s.totalLen = blockBytes s := by
  have ⟨_, ⟨txbuf, _⟩, _⟩ := h
  obtain ⟨_, _, _, writes⟩ := serializeWritesTheBlock s
  obtain ⟨_, accounting⟩ := transmitAccounting s h build
  obtain ⟨staged, whole, fits⟩ := accounting populated
  obtain ⟨out, written, ends⟩ := writes build populated staged whole fits txbuf
  cases ran.symm.trans ends
  exact ⟨rfl, rfl, whole ▸ readN_of_writtenAt written⟩

/-- INIT_RX and PARSE of the block in a state with the build's slot file show the build's CEs, then its SDUs. -/
theorem RunInv.parses_back {u : State} (cfg : u.cfg = s.cfg) (slots : u.slots = s.slots)
    (block : u.rxbuf.readN 0 s.totalLen = blockBytes s) :
    ∃ v, thenRun (exec (.initRx (word s.totalLen)) u) (exec .parse) = .next v ∧
      v.code = .ok ∧ v.count = (subEntries s).length ∧
      ((slotsInUse v).filter fun x => decide (x.kind ≠ .padding)).map (entryView u.rxbuf) =
        (ceSlots s ++ sduSlots s).map (entryView s.sdubuf) := by
  have ⟨⟨ok, files, _⟩, _, ⟨total, _⟩, _, _, _, _, tx, _⟩ := h
  have found := h.parseBlock_blockBytes build populated
  have payloads := h.blockBytes_eq build populated
  have room : (subEntries s).length ≤ u.slots.length := by
    have ⟨counted, _⟩ := tx ((building_general s).mpr build)
    have := length_subEntries_le s
    rw [slots]
    omega
  rw [← block] at found payloads
  rw [← cfg] at found ok total
  have parse := exec_parse_found (s := (u.initContainer .general .rxReady false s.totalLen 0).withCode .ok) rfl total
    found
  rw [exec_initRx ok total]
  refine ⟨_, parse, rfl, List.length_map .., ?_⟩
  have view := view_commitEntries (cfg ▸ ok) (h.sound_subEntries build populated) room payloads
  rwa [filterMap_slot?_subEntries, ← List.length_map (SubEntry.entry (padZeros s))] at view

end

/-- Settles O44: PARSE finds the build's entries in the block SERIALIZE wrote, and the slots it commits show the build's
slots in the order of the subheaders. -/
theorem serializedBuildsParseBack : Obligations.SerializedBuildsParseBack := by
  intro s t m h build populated ran copied
  obtain ⟨cfg, slots, written⟩ := h.serialized build populated ran
  have block : m.readN 0 s.totalLen = blockBytes s :=
    (m.readN_congr t.txbuf 0 s.totalLen fun j _ inside => copied j (by omega)).trans written
  exact h.parses_back build populated cfg slots (u := { t with rxbuf := m }) block

end Sys2Proof.Machine
end

section
/-! PROOFS. The commands of a random-access-response container, check by check (44_rar R273 to R276, R283 to R285):
RAR_APPEND, RAR_REMOVE_LAST, RAR_SET_BACKOFF, RAR_SET_GRANT, RAR_ITER_NEXT, RAR_GET_GRANT, RAR_GET_BACKOFF. -/

namespace Sys2Proof.Machine

/-! ### Outside a RAR container -/

/-- A command whose first check is not met ends with ERR_STATE. -/
theorem unless_met {b : Bool} (notMet : ¬ b = true) (s : State) (r : Result) :
    (if !b then fail .errState s else r) = .next { s with code := .errState } := by
  rw [Bool.eq_false_iff.mpr notMet]
  rfl

theorem unless_buildingRar {s : State} (other : ¬ RarBuild s) (r : Result) :
    (if !building .rar s then fail .errState s else r) = .next { s with code := .errState } :=
  unless_met (mt (building_rar s).mp other) s r

theorem unless_parsedRar {s : State} (other : ¬ RarParsed s) (r : Result) :
    (if !parsed .rar s then fail .errState s else r) = .next { s with code := .errState } :=
  unless_met (mt (parsed_rar s).mp other) s r

/-! ### The RAR build -/

section
variable {s : State} (build : RarBuild s)
include build

theorem rarAppend_unpopulated (unpopulated : LastUnpopulated s) : OnlyEndsWith .rarAppend s .errState := by
  change execRarAppend s = _
  rw [execRarAppend, (building_rar s).mpr build, (lastRSlotUnpopulated_iff s).mpr unpopulated]
  rfl

theorem rarAppend_full (populated : ¬ LastUnpopulated s) (full : s.rcount = s.cfg.maxRarGrants) :
    OnlyEndsWith .rarAppend s .errCapacity := by
  change execRarAppend s = _
  rw [execRarAppend, (building_rar s).mpr build, if_neg (mt (lastRSlotUnpopulated_iff s).mp populated), if_pos full]
  rfl

/-- RAR_APPEND in a build with room whose last slot is populated (R273). -/
theorem exec_rarAppend (populated : ¬ LastUnpopulated s) (room : s.rcount ≠ s.cfg.maxRarGrants) :
    exec .rarAppend s =
      doneWith [word s.rcount] { s.setRSlot s.rcount RSlot.zero with rcount := s.rcount + 1 } := by
  change execRarAppend s = _
  rw [execRarAppend, (building_rar s).mpr build, if_neg (mt (lastRSlotUnpopulated_iff s).mp populated), if_neg room]
  rfl

theorem rarRemoveLast_noSlot (noSlot : s.rcount = 0) : OnlyEndsWith .rarRemoveLast s .errState := by
  change execRarRemoveLast s = _
  rw [execRarRemoveLast, (building_rar s).mpr build, if_pos noSlot]
  rfl

/-- RAR_REMOVE_LAST in a build with a slot (R274). -/
theorem exec_rarRemoveLast (nonempty : s.rcount ≠ 0) :
    exec .rarRemoveLast s = doneWith [word (s.rcount - 1)]
      { s with remLen := s.remLen + (if (rslotAt s (s.rcount - 1)).populated then 7 else 0),
               rcount := s.rcount - 1 } := by
  have freed : (if (rslotAt s (s.rcount - 1)).populated then s.remLen + 7 else s.remLen) =
      s.remLen + (if (rslotAt s (s.rcount - 1)).populated then 7 else 0) := by split <;> rfl
  simp only [exec, execRarRemoveLast, (building_rar s).mpr build, if_neg nonempty, freed]
  rfl

theorem rarSetBackoff_noRoom (bi : BitVec 4) (first : s.hasBi = false) (noRoom : s.remLen < 1) :
    OnlyEndsWith (.rarSetBackoff bi) s .errCapacity := by
  change execRarSetBackoff bi s = fail .errCapacity s
  rw [execRarSetBackoff, (building_rar s).mpr build, first, if_pos noRoom]
  rfl

/-- The first RAR_SET_BACKOFF of a build reserves a byte (R275). -/
theorem rarSetBackoff_first (bi : BitVec 4) (first : s.hasBi = false) (room : 1 ≤ s.remLen) :
    exec (.rarSetBackoff bi) s = done { s with remLen := s.remLen - 1, hasBi := true, bi := bi } := by
  change execRarSetBackoff bi s = _
  rw [execRarSetBackoff, (building_rar s).mpr build, first, if_neg (Nat.not_lt_of_le room)]
  rfl

/-- A later RAR_SET_BACKOFF only overwrites BI (R275). -/
theorem rarSetBackoff_again (bi : BitVec 4) (again : s.hasBi = true) :
    exec (.rarSetBackoff bi) s = done { s with hasBi := true, bi := bi } := by
  change execRarSetBackoff bi s = _
  rw [execRarSetBackoff, (building_rar s).mpr build, again]
  rfl

section
variable (rapid : BitVec 6) (ta : BitVec 11) (grant : BitVec 20) (tc : BitVec 16)

theorem rarSetGrant_populated (populated : ¬ LastUnpopulated s) :
    OnlyEndsWith (.rarSetGrant rapid ta grant tc) s .errState := by
  change execRarSetGrant rapid ta grant tc s = _
  rw [execRarSetGrant, (building_rar s).mpr build]
  exact unless_met (mt (lastRSlotUnpopulated_iff s).mp populated) s _

theorem rarSetGrant_noRoom (unpopulated : LastUnpopulated s) (noRoom : s.remLen < 7) :
    OnlyEndsWith (.rarSetGrant rapid ta grant tc) s .errCapacity := by
  change execRarSetGrant rapid ta grant tc s = _
  rw [execRarSetGrant, (building_rar s).mpr build, (lastRSlotUnpopulated_iff s).mpr unpopulated, if_pos noRoom]
  rfl

/-- RAR_SET_GRANT fills the slot that waits for it (R276). -/
theorem exec_rarSetGrant (unpopulated : LastUnpopulated s) (room : 7 ≤ s.remLen) :
    exec (.rarSetGrant rapid ta grant tc) s =
      done { s.setRSlot (s.rcount - 1) ⟨true, rapid, ta, grant, tc⟩ with remLen := s.remLen - 7 } := by
  change execRarSetGrant rapid ta grant tc s = _
  rw [execRarSetGrant, (building_rar s).mpr build, (lastRSlotUnpopulated_iff s).mpr unpopulated,
    if_neg (Nat.not_lt_of_le room)]
  rfl

end

end

/-- Settles O45: the checks in order; `exec_rarAppend` and `exec_rarRemoveLast` are the commands that pass them. -/
theorem rarAppendAndRemove : Obligations.RarAppendAndRemove :=
  fun _ => ⟨fun other => ⟨unless_buildingRar other _, unless_buildingRar other _⟩, rarAppend_unpopulated,
    rarAppend_full, exec_rarAppend, rarRemoveLast_noSlot, exec_rarRemoveLast⟩

/-- Settles O46: the checks in order, then the first backoff indicator, a later one, and the grant. -/
theorem rarBackoffAndGrantReserve : Obligations.RarBackoffAndGrantReserve :=
  fun bi rapid ta grant tc _ => ⟨fun other => ⟨unless_buildingRar other _, unless_buildingRar other _⟩,
    fun build => rarSetBackoff_noRoom build bi, fun build => rarSetBackoff_first build bi,
    fun build => rarSetBackoff_again build bi, fun build => rarSetGrant_populated build rapid ta grant tc,
    fun build => rarSetGrant_noRoom build rapid ta grant tc, fun build => exec_rarSetGrant build rapid ta grant tc⟩

/-! ### The parsed RAR container -/

section
variable {s : State} (isParsed : RarParsed s)
include isParsed

theorem rarIterNext_ended (ended : biCount s + s.rcount ≤ s.iter) : OnlyEndsWith .rarIterNext s .iterEnd := by
  change execRarIterNext s = _
  rw [execRarIterNext, (parsed_rar s).mpr isParsed, if_pos ended]
  rfl

/-- The first entry of a container with a backoff indicator is that (R283). -/
theorem rarIterNext_backoff (backoff : s.hasBi = true) (first : s.iter = 0) :
    exec .rarIterNext s = doneWith [16, s.bi.setWidth 32, 0] { s with cur := some 0, iter := 1 } := by
  have more : ¬ biCount s + s.rcount ≤ s.iter := by simp [biCount, backoff, first]
  change execRarIterNext s = _
  rw [execRarIterNext, (parsed_rar s).mpr isParsed, if_neg more, backoff, first]
  rfl

/-- Every other entry is a grant (R283). -/
theorem rarIterNext_grant (grant : ¬ (s.hasBi = true ∧ s.iter = 0)) (more : s.iter < biCount s + s.rcount) :
    exec .rarIterNext s =
      doneWith [17, (rslotAt s (s.iter - biCount s)).rapid.setWidth 32, word s.iter]
        { s with cur := some s.iter, iter := s.iter + 1 } := by
  have notBackoff : ¬ (s.hasBi && s.iter == 0) = true := by simpa using grant
  simp only [exec, execRarIterNext, (parsed_rar s).mpr isParsed, if_neg (Nat.not_le_of_lt more), if_neg notBackoff]
  rfl

theorem rarGetGrant_noGrant (noGrant : s.cur = none ∨ (s.hasBi = true ∧ s.cur = some 0)) :
    OnlyEndsWith .rarGetGrant s .errState := by
  change execRarGetGrant s = fail .errState s
  rw [execRarGetGrant, (parsed_rar s).mpr isParsed]
  rcases noGrant with noEntry | ⟨backoff, entry⟩
  · rw [noEntry]
    rfl
  · rw [entry, backoff]
    rfl

/-- RAR_GET_GRANT on an entry that is a grant (R284). -/
theorem rarGetGrant_grant {c : Nat} (entry : s.cur = some c) (grant : ¬ (s.hasBi = true ∧ c = 0)) :
    exec .rarGetGrant s = doneWith (Unread.grantResults (rslotAt s (c - biCount s))) s := by
  have notBackoff : ¬ (s.hasBi && c == 0) = true := by simpa using grant
  change execRarGetGrant s = _
  rw [execRarGetGrant, (parsed_rar s).mpr isParsed, entry]
  exact if_neg notBackoff

end

theorem rarGetBackoff_noContainer {s : State} (none : s.ctype ≠ .rar ∨ s.mode = .idle) :
    OnlyEndsWith .rarGetBackoff s .errState :=
  if_pos (by simpa using none)

/-- RAR_GET_BACKOFF in any RAR container (R285). -/
theorem exec_rarGetBackoff {s : State} (ctype : s.ctype = .rar) (mode : s.mode ≠ .idle) :
    exec .rarGetBackoff s = doneWith [(BitVec.ofBool s.hasBi).setWidth 32, s.bi.setWidth 32] s := by
  have container : ¬ (!(s.ctype == .rar) || s.mode == .idle) = true := by simp [ctype, mode]
  change execRarGetBackoff s = _
  rw [execRarGetBackoff, if_neg container]
  cases s.hasBi <;> rfl

/-- Settles O50: the checks in order, then the backoff indicator and the grants. -/
theorem rarIterNextReturnsEntries : Obligations.RarIterNextReturnsEntries :=
  fun _ => ⟨fun other => unless_parsedRar other _, rarIterNext_ended, rarIterNext_backoff, rarIterNext_grant⟩

/-- Settles O51: the checks in order, then the slot of the grant and the backoff indicator. -/
theorem rarGettersDecode : Obligations.RarGettersDecode :=
  fun _ => ⟨fun other => unless_parsedRar other _, rarGetGrant_noGrant,
    fun _ isParsed entry => rarGetGrant_grant isParsed entry, rarGetBackoff_noContainer, exec_rarGetBackoff⟩

end Sys2Proof.Machine
end

section
/-! PROOFS. The block of a RAR build (44_rar R270, R277, R278; 30_encoding R123, R124): the length of its subheaders and
payloads and the budget that pays for them, their octets as numbers, and RAR_SERIALIZE, which writes them. -/

namespace Sys2Proof.Machine

/-! ### Lengths -/

theorem rslotsInUse_eq_map {s : State} (inFile : s.rcount ≤ s.rslots.length) :
    rslotsInUse s = (List.range s.rcount).map (rslotAt s) := by
  apply List.ext_getElem
  · simpa [rslotsInUse] using inFile
  · intro k inUse _
    obtain ⟨_, file⟩ : k < s.rcount ∧ k < s.rslots.length := by simpa [rslotsInUse] using inUse
    simp [rslotsInUse, rslotAt, List.getD, file]

theorem length_rslotsInUse {s : State} (inFile : s.rcount ≤ s.rslots.length) : (rslotsInUse s).length = s.rcount :=
  List.length_take_of_le inFile

@[simp] theorem length_grantHeaders (gs : List RSlot) : (grantHeaders gs).length = gs.length := by
  induction gs with
  | nil => rfl
  | cons g gs ih => simp [grantHeaders, ih]

theorem length_rarHeaders (s : State) : (rarHeaders s).length = biCount s + (rslotsInUse s).length := by
  rw [rarHeaders, List.length_append, length_grantHeaders, biCount]
  split <;> rfl

@[simp] theorem length_grantPayloads (gs : List RSlot) : (grantPayloads gs).length = 6 * gs.length := by
  induction gs with
  | nil => rfl
  | cons g gs ih =>
    have first : (octets (grantValue g) 6).length = 6 := rfl
    rw [grantPayloads, List.flatMap_cons, List.length_append, first, ← grantPayloads, ih, List.length_cons]
    omega

/-! ### The budget -/

section
variable {s : State} (h : RunInv s) (build : RarBuild s)
include h build

/-- In a build whose last slot is populated every slot is (R271). -/
theorem RunInv.grants_populated (populated : ¬ LastUnpopulated s) : ∀ g ∈ rslotsInUse s, g.populated = true := by
  have ⟨⟨_, _, files⟩, _, ⟨_, _, _, fits, _⟩, _, _, _, _, _, _, tx, _⟩ := h
  obtain ⟨_, others⟩ := tx ((building_rar s).mpr build)
  rw [rslotsInUse_eq_map (files.symm ▸ fits)]
  simp only [List.mem_map, List.mem_range]
  rintro _ ⟨k, inUse, rfl⟩
  rcases Nat.lt_or_eq_of_le (Nat.succ_le_of_lt inUse) with before | last
  · exact others k inUse before
  · by_contra unpopulated
    exact populated ⟨by omega, by simpa [← last] using unpopulated⟩

/-- The subheaders and payloads of a build with every slot populated take what the budget has spent (R270). -/
theorem RunInv.length_rarBlock (populated : ¬ LastUnpopulated s) :
    (rarHeaders s).length + (grantPayloads (rslotsInUse s)).length + s.remLen = s.totalLen := by
  have ⟨_, _, _, _, _, _, _, _, _, tx, _⟩ := h
  obtain ⟨budget, _⟩ := tx ((building_rar s).mpr build)
  have all : populatedGrants s = (rslotsInUse s).length :=
    congrArg List.length (List.filter_eq_self.mpr (h.grants_populated build populated))
  rw [length_rarHeaders, length_grantPayloads]
  omega

end

/-- Settles O47: the budget of the invariant, with the slots counted by index; a populated slot's 7 bytes are its
subheader and its payload. -/
theorem rarBudget : Obligations.RarBudget := by
  intro s h build
  refine ⟨?_, h.length_rarBlock build⟩
  have ⟨⟨_, _, files⟩, _, ⟨_, _, _, fits, _⟩, _, _, _, _, _, _, tx, _⟩ := h
  obtain ⟨budget, _⟩ := tx ((building_rar s).mpr build)
  rwa [populatedGrants, rslotsInUse_eq_map (files.symm ▸ fits), List.filter_map, List.length_map] at budget

/-! ### Octets as numbers -/

theorem toNat_append_eq {m n : Nat} (x : BitVec m) (y : BitVec n) : (x ++ y).toNat = x.toNat * 2 ^ n + y.toNat := by
  rw [BitVec.toNat_append, ← Nat.shiftLeft_add_eq_or_of_lt y.isLt, Nat.shiftLeft_eq]

theorem backoffByte_eq_ofNat (e : Bool) (bi : BitVec 4) :
    backoffByte e bi = BitVec.ofNat 8 ((if e then 128 else 0) + bi.toNat) := by
  have fits := bi.isLt
  apply BitVec.eq_of_toNat_eq
  rw [backoffByte, toNat_append_eq, BitVec.toNat_ofNat]
  cases e <;> simp <;> omega

theorem grantByte_eq_ofNat (e : Bool) (rapid : BitVec 6) :
    grantByte e rapid = BitVec.ofNat 8 ((if e then 128 else 0) + 64 + rapid.toNat) := by
  have fits := rapid.isLt
  apply BitVec.eq_of_toNat_eq
  rw [grantByte, toNat_append_eq, BitVec.toNat_ofNat]
  cases e <;> simp <;> omega

theorem not_isEmpty_eq_decide (gs : List RSlot) : (!gs.isEmpty) = decide (0 < gs.length) := by
  cases gs <;> simp

theorem grantHeaders_eq_mapIdx (gs : List RSlot) :
    grantHeaders gs = gs.mapIdx fun j g => grantByte (decide (j + 1 < gs.length)) g.rapid := by
  induction gs with
  | nil => rfl
  | cons g gs ih => simpa [grantHeaders, List.mapIdx_cons, not_isEmpty_eq_decide] using ih

/-- The octets of a value, most significant first, as numbers (20_memory R74). -/
theorem octets_eq_map {w : Nat} (v : BitVec w) (n : Nat) :
    octets v n = (List.range n).map fun b => BitVec.ofNat 8 (v.toNat / 2 ^ (8 * (n - 1 - b))) := by
  induction n with
  | zero => rfl
  | succ n ih =>
    have first : v.extractLsb' (8 * n) 8 = BitVec.ofNat 8 (v.toNat / 2 ^ (8 * n)) :=
      congrArg (BitVec.ofNat 8) (Nat.shiftRight_eq_div_pow ..)
    simp [octets, List.range_succ_eq_map, ih, first, Function.comp_def, Nat.sub_sub, Nat.add_comm 1]

theorem toNat_grantValue (g : RSlot) :
    (grantValue g).toNat = g.ta.toNat * 2 ^ 36 + g.grant.toNat * 2 ^ 16 + g.tc.toNat := by
  simp only [grantValue, toNat_append_eq, BitVec.toNat_ofNat]
  omega

/-- The subheaders as numbers (30_encoding R123). -/
theorem rarHeaders_eq {s : State} (inFile : s.rcount ≤ s.rslots.length) :
    rarHeaders s =
      (if s.hasBi then [BitVec.ofNat 8 ((if 0 < s.rcount then 128 else 0) + s.bi.toNat)] else []) ++
      (rslotsInUse s).mapIdx fun j g =>
        BitVec.ofNat 8 ((if j + 1 < s.rcount then 128 else 0) + 64 + g.rapid.toNat) := by
  simp only [rarHeaders, not_isEmpty_eq_decide, grantHeaders_eq_mapIdx, backoffByte_eq_ofNat, grantByte_eq_ofNat,
    length_rslotsInUse inFile, decide_eq_true_eq]

/-- The payloads as numbers (30_encoding R124). -/
theorem grantPayloads_eq (gs : List RSlot) :
    grantPayloads gs = gs.flatMap fun g => (List.range 6).map fun b =>
      BitVec.ofNat 8 ((g.ta.toNat * 2 ^ 36 + g.grant.toNat * 2 ^ 16 + g.tc.toNat) / 2 ^ (8 * (5 - b))) := by
  simp only [grantPayloads, octets_eq_map, toNat_grantValue]

/-! ### RAR_SERIALIZE -/

/-- The zeros that fill a RAR block to TOTAL_LEN (R277). -/
def rarZeros (s : State) : Nat := s.totalLen - ((rarHeaders s).length + (grantPayloads (rslotsInUse s)).length)

/-- OUT of R277: subheaders, payloads, zeros. -/
def rarBlockBytes (s : State) : List Byte :=
  rarHeaders s ++ grantPayloads (rslotsInUse s) ++ List.replicate (rarZeros s) 0#8

/-- A block whose subheaders and payloads fit has TOTAL_LEN bytes. -/
theorem length_rarBlockBytes {s : State}
    (fits : (rarHeaders s).length + (grantPayloads (rslotsInUse s)).length ≤ s.totalLen) :
    (rarBlockBytes s).length = s.totalLen := by
  rw [rarBlockBytes, List.length_append, List.length_append, List.length_replicate, rarZeros]
  omega

section
variable {s : State} (build : RarBuild s)
include build

theorem rarSerialize_unpopulated (unpopulated : LastUnpopulated s) : OnlyEndsWith .rarSerialize s .errState := by
  change execRarSerialize s = _
  rw [execRarSerialize, (building_rar s).mpr build, (lastRSlotUnpopulated_iff s).mpr unpopulated]
  rfl

/-- A RAR with neither a backoff indicator nor a grant is refused (R278). -/
theorem rarSerialize_bare (noBackoff : s.hasBi = false) (noGrant : s.rcount = 0) :
    OnlyEndsWith .rarSerialize s .errState := by
  have last : ¬ lastRSlotUnpopulated s = true := by simp [lastRSlotUnpopulated, noGrant]
  have bare : (!s.hasBi && decide (s.rcount = 0)) = true := by simp [noBackoff, noGrant]
  change execRarSerialize s = _
  rw [execRarSerialize, (building_rar s).mpr build, if_neg last, if_pos bare]
  rfl

/-- RAR_SERIALIZE of a build with its slots populated and an entry commits the block (R277). -/
theorem rarSerialize_commits (populated : ¬ LastUnpopulated s) (content : s.hasBi = true ∨ s.rcount ≠ 0) :
    exec .rarSerialize s =
      commitBlock (rarBlockBytes s) [word s.totalLen, word (rarHeaders s).length, word (rarZeros s)] s := by
  have last : ¬ lastRSlotUnpopulated s = true := mt (lastRSlotUnpopulated_iff s).mp populated
  have notBare : ¬ (!s.hasBi && decide (s.rcount = 0)) = true := by
    rcases content with backoff | grants
    · simp [backoff]
    · simp [grants]
  simp only [exec, execRarSerialize, (building_rar s).mpr build, if_neg last, if_neg notBare, Nat.sub_sub]
  rfl

/-- RAR_SERIALIZE of a block that fits writes it to TXBUF (R277). -/
theorem exec_rarSerialize (populated : ¬ LastUnpopulated s) (content : s.hasBi = true ∨ s.rcount ≠ 0)
    (fits : (rarHeaders s).length + (grantPayloads (rslotsInUse s)).length ≤ s.totalLen)
    (inside : s.totalLen ≤ s.cfg.maxTbBytes) :
    exec .rarSerialize s = .next
      { s with txbuf := s.txbuf.writeN 0 (rarBlockBytes s), mode := .txDone,
               results := { s.results with r0 := word s.totalLen, r1 := word (rarHeaders s).length,
                                           r2 := word (rarZeros s) },
               code := .ok } := by
  have whole := length_rarBlockBytes fits
  have inBuffer : (rarBlockBytes s).length = 0 ∨ 0 + (rarBlockBytes s).length ≤ s.cfg.maxTbBytes := by omega
  rw [rarSerialize_commits build populated content, commitBlock, if_neg (not_not.mpr whole),
    memWrite_eq _ _ _ _ inBuffer]
  rfl

end

/-- Settles O48: `rarSerialize_commits` says that the block is committed, after the check of its length; its octets are
the numbers of `rarHeaders_eq` and `grantPayloads_eq`. -/
theorem rarSerializeWritesTheBlock : Obligations.RarSerializeWritesTheBlock := by
  intro s inFile
  rw [← rarHeaders_eq inFile, ← grantPayloads_eq]
  refine ⟨fun other => unless_buildingRar other _, rarSerialize_unpopulated, rarSerialize_bare,
    fun build populated content long => ?_, fun build populated content fits inside canonical =>
      ⟨_, Memory.writtenAt_writeN 0 (rarBlockBytes s) canonical.1,
        exec_rarSerialize build populated content fits inside⟩⟩
  have tooLong : (rarBlockBytes s).length ≠ s.totalLen := by
    rw [rarBlockBytes, List.length_append, List.length_append]
    omega
  rw [rarSerialize_commits build populated content, commitBlock, if_pos tooLong]
  rfl

end Sys2Proof.Machine
end

section
/-! PROOFS. RAR_PARSE (44_rar R281): the subheader walk and the wire grammar (30_encoding R123), read one subheader
after the other; the slots the commit fills; and what RAR_PARSE makes of a block of the grammar and of any other. -/

namespace Sys2Proof.Machine

/-! ### The grammar, one subheader at a time -/

theorem rarHeadersOf_nil_iff {rapids : List (BitVec 6)} : RarHeadersOf none rapids [] ↔ rapids = [] := by
  constructor
  · rintro ⟨counted, _⟩
    exact List.eq_nil_of_length_eq_zero (by simpa using counted.symm)
  · rintro rfl
    simp [RarHeadersOf]

/-- E = 1 iff another subheader follows, of the first subheader and of the later ones. -/
theorem continues_cons_iff {o : Byte} {hdr : List Byte} :
    (∀ j (x : Byte), (o :: hdr)[j]? = some x → x.getLsbD 7 = decide (j + 1 < (o :: hdr).length)) ↔
      o.getLsbD 7 = decide (hdr ≠ []) ∧
        ∀ j (x : Byte), hdr[j]? = some x → x.getLsbD 7 = decide (j + 1 < hdr.length) := by
  rw [← Nat.and_forall_add_one]
  simp [List.length_pos_iff]

/-- A grant subheader, then the later ones. -/
theorem rarHeadersOf_grant_iff {rapids : List (BitVec 6)} {o : Byte} {hdr : List Byte} :
    RarHeadersOf none rapids (o :: hdr) ↔
      ∃ later, rapids = o.extractLsb' 0 6 :: later ∧ o.getLsbD 6 = true ∧ o.getLsbD 7 = decide (hdr ≠ []) ∧
        RarHeadersOf none later hdr := by
  rw [RarHeadersOf, continues_cons_iff]
  cases rapids with
  | nil => simp
  | cons r later =>
    rw [← Nat.and_forall_add_one (p := fun j => ∀ r', (r :: later)[j]? = _ → _)]
    simp [RarHeadersOf]
    tauto

/-- The backoff subheader, then the grants. -/
theorem rarHeadersOf_backoff_iff {b : BitVec 4} {rapids : List (BitVec 6)} {o : Byte} {hdr : List Byte} :
    RarHeadersOf (some b) rapids (o :: hdr) ↔
      o.extractLsb' 0 4 = b ∧ o.getLsbD 6 = false ∧ o.getLsbD 7 = decide (hdr ≠ []) ∧
        RarHeadersOf none rapids hdr := by
  rw [RarHeadersOf, continues_cons_iff]
  simp [RarHeadersOf, Nat.add_comm 1]
  tauto

/-! ### The walk -/

/-- The walk, when it ends, has read the subheaders it answers, a backoff indicator only at the start. -/
theorem walkRar_rarHeadersOf {maxGrants : Nat} {bytes : List Byte} {pos m : Nat} {h : RarHeads}
    (found : walkRar maxGrants bytes pos m = some h) :
    (pos ≠ 0 → h.bi = none) ∧ ∃ hdr rest, bytes = hdr ++ rest ∧ hdr ≠ [] ∧ h.hlen = pos + hdr.length ∧
      RarHeadersOf h.bi h.rapids hdr := by
  induction bytes generalizing pos m h with
  | nil => cases found
  | cons o rest ih =>
    simp only [walkRar] at found
    split_ifs at found with backoff first more full more
    · obtain ⟨tail, walked, rfl⟩ := Option.map_eq_some_iff.mp found
      obtain ⟨grants, hdr, rest, rfl, nonempty, hlen, headers⟩ := ih walked
      rw [grants (Nat.succ_ne_zero pos)] at headers
      exact ⟨first.elim, o :: hdr, rest, rfl, List.cons_ne_nil _ _, hlen.trans (Nat.add_right_comm ..),
        rarHeadersOf_backoff_iff.mpr ⟨rfl, by simpa using backoff, by simp [more, nonempty], headers⟩⟩
    · cases found
      exact ⟨first.elim, [o], rest, rfl, List.cons_ne_nil _ _, rfl,
        rarHeadersOf_backoff_iff.mpr ⟨rfl, by simpa using backoff, by simpa using more, rarHeadersOf_nil_iff.mpr rfl⟩⟩
    · obtain ⟨tail, walked, rfl⟩ := Option.map_eq_some_iff.mp found
      obtain ⟨grants, hdr, rest, rfl, nonempty, hlen, headers⟩ := ih walked
      have noBackoff := grants (Nat.succ_ne_zero pos)
      rw [noBackoff] at headers
      refine ⟨fun _ => noBackoff, o :: hdr, rest, rfl, List.cons_ne_nil _ _, hlen.trans (Nat.add_right_comm ..), ?_⟩
      rw [noBackoff]
      exact rarHeadersOf_grant_iff.mpr ⟨_, rfl, by simpa using backoff, by simp [more, nonempty], headers⟩
    · cases found
      exact ⟨fun _ => rfl, [o], rest, rfl, List.cons_ne_nil _ _, rfl,
        rarHeadersOf_grant_iff.mpr ⟨[], rfl, by simpa using backoff, by simpa using more, rarHeadersOf_nil_iff.mpr rfl⟩⟩

/-- The walk reads the grant subheaders of a block that has no more grants than MAX_RAR_GRANTS. -/
theorem RarHeadersOf.walkRar_grants {maxGrants : Nat} {rapids : List (BitVec 6)} {hdr : List Byte}
    (h : RarHeadersOf none rapids hdr) (nonempty : hdr ≠ []) {pos m : Nat} (rest : List Byte)
    (fits : m + rapids.length ≤ maxGrants) :
    walkRar maxGrants (hdr ++ rest) pos m = some ⟨none, rapids, pos + hdr.length⟩ := by
  induction hdr generalizing rapids pos m with
  | nil => exact absurd rfl nonempty
  | cons o hdr ih =>
    obtain ⟨later, rfl, grant, more, headers⟩ := rarHeadersOf_grant_iff.mp h
    rw [List.length_cons] at fits
    have room : m ≠ maxGrants := by omega
    rw [List.cons_append, Machine.walkRar, grant, more]
    cases hdr with
    | nil =>
      cases rarHeadersOf_nil_iff.mp headers
      simp [room]
    | cons x hdr =>
      have walked := ih headers (List.cons_ne_nil _ _) (pos := pos + 1) (m := m + 1) (by omega)
      rw [walked, Nat.add_right_comm]
      simp [room, Nat.add_assoc]

/-- The walk reads the subheaders of a block that has no more grants than MAX_RAR_GRANTS. -/
theorem RarHeadersOf.walkRar {maxGrants : Nat} {bi : Option (BitVec 4)} {rapids : List (BitVec 6)} {hdr : List Byte}
    (h : RarHeadersOf bi rapids hdr) (nonempty : hdr ≠ []) (rest : List Byte) (fits : rapids.length ≤ maxGrants) :
    walkRar maxGrants (hdr ++ rest) 0 0 = some ⟨bi, rapids, hdr.length⟩ := by
  cases bi with
  | none => simpa using h.walkRar_grants nonempty (pos := 0) (m := 0) rest (by omega)
  | some b =>
    obtain ⟨o, hdr, rfl⟩ := List.exists_cons_of_ne_nil nonempty
    obtain ⟨rfl, backoff, more, headers⟩ := rarHeadersOf_backoff_iff.mp h
    rw [List.cons_append, Machine.walkRar, backoff, more]
    cases hdr with
    | nil =>
      cases rarHeadersOf_nil_iff.mp headers
      rfl
    | cons x hdr =>
      rw [headers.walkRar_grants (List.cons_ne_nil _ _) rest (by omega)]
      simp [Nat.add_comm]

/-! ### The block -/

/-- The RAR block that RAR_PARSE accepts: no bytes at all, or subheaders of the grammar with room for the payloads
behind them (R281). -/
def RarBlockOf (maxGrants : Nat) (bytes : List Byte) (bi : Option (BitVec 4)) (rapids : List (BitVec 6)) (h : Nat) :
    Prop :=
  (bytes.length = 0 ∧ bi = none ∧ rapids = [] ∧ h = 0) ∨
  (1 ≤ h ∧ h ≤ bytes.length ∧ RarHeadersOf bi rapids (bytes.take h) ∧ rapids.length ≤ maxGrants ∧
    h + 6 * rapids.length ≤ bytes.length)

/-- The parse accepts exactly the grammar's blocks. -/
theorem parseRar_eq_some_iff {maxGrants : Nat} {bytes : List Byte} {bi : Option (BitVec 4)} {rapids : List (BitVec 6)}
    {h : Nat} : parseRar maxGrants bytes = some ⟨bi, rapids, h⟩ ↔ RarBlockOf maxGrants bytes bi rapids h := by
  constructor
  · intro found
    have room := parseRar_some found
    unfold parseRar at found
    split_ifs at found with empty
    · cases found
      exact .inl ⟨empty, rfl, rfl, rfl⟩
    · split at found
      · cases found
      · next walked =>
        split_ifs at found with short
        cases found
        obtain ⟨_, hdr, rest, rfl, nonempty, hlen, headers⟩ := walkRar_rarHeadersOf walked
        obtain rfl : h = hdr.length := by simpa using hlen
        refine .inr ⟨List.length_pos_iff.mpr nonempty, ?_, ?_, room, Nat.le_of_not_lt short⟩
        · simp
        · simpa using headers
  · rintro (⟨empty, rfl, rfl, rfl⟩ | ⟨positive, inside, headers, room, fits⟩)
    · exact if_pos empty
    · have nonempty : bytes.take h ≠ [] := by
        rw [← List.length_pos_iff, List.length_take_of_le inside]
        exact positive
      have walked := headers.walkRar nonempty (bytes.drop h) room
      rw [List.take_append_drop, List.length_take_of_le inside] at walked
      rw [parseRar, if_neg (by omega), walked]
      exact if_neg (Nat.not_lt_of_le fits)

/-! ### The commit -/

/-- The slots after a commit: slot j holds grant j, its payload the j-th 6 octets; the others are as before (R281). -/
theorem commitGrants_getElem? (rapids : List (BitVec 6)) (bytes : List Byte) (old : List RSlot) (j : Nat) :
    (commitGrants rapids bytes old)[j]? =
      old[j]?.map fun x => (rapids[j]?.map fun r => grantFrom r (bytes.drop (6 * j))).getD x := by
  induction rapids generalizing bytes old j with
  | nil => simp [commitGrants]
  | cons r rs ih =>
    cases old with
    | nil => rfl
    | cons x old =>
      cases j with
      | zero => simp [commitGrants]
      | succ j => simp [commitGrants, ih, Nat.mul_add, Nat.add_comm]

section
variable {s : State} (receives : receiving .rar s = true) (fits : s.totalLen ≤ s.cfg.maxTbBytes)
include receives fits

/-- RAR_PARSE inside the buffer ends by what the walk finds. -/
theorem exec_rarParse :
    exec .rarParse s =
      (parseRar s.cfg.maxRarGrants (receivedBytes s)).elim (rarCorrupt s) fun h => rarCommit (receivedBytes s) h s := by
  have read : memRead s.cfg s.rxbuf 0 s.totalLen = some (receivedBytes s) :=
    memRead_eq _ _ _ _ (.inr ((Nat.zero_add _).symm ▸ fits))
  simp only [exec, execRarParse, receives, read, orFault_some]
  cases parseRar s.cfg.maxRarGrants (receivedBytes s) <;> rfl

/-- RAR_PARSE of a block of the grammar commits it (R281). -/
theorem exec_rarParse_found {bi : Option (BitVec 4)} {rapids : List (BitVec 6)} {h : Nat}
    (block : RarBlockOf s.cfg.maxRarGrants (receivedBytes s) bi rapids h) :
    exec .rarParse s = .next
      { s with rslots := commitGrants rapids ((receivedBytes s).drop h) s.rslots, rcount := rapids.length,
               hasBi := bi.isSome, bi := bi.getD 0, corrupt := false, mode := .rxParsed, iter := 0, cur := none,
               results := { s.results with r0 := word rapids.length, r1 := if bi.isSome then 1 else 0 },
               code := .ok } := by
  rw [exec_rarParse receives fits, parseRar_eq_some_iff.mpr block]
  rfl

/-- RAR_PARSE of any other block empties the container (R281). -/
theorem exec_rarParse_corrupt (other : ∀ bi rapids h, ¬ RarBlockOf s.cfg.maxRarGrants (receivedBytes s) bi rapids h) :
    exec .rarParse s = rarCorrupt s := by
  have nothing : parseRar s.cfg.maxRarGrants (receivedBytes s) = none :=
    Option.eq_none_iff_forall_ne_some.mpr fun _ found => other _ _ _ (parseRar_eq_some_iff.mp found)
  rw [exec_rarParse receives fits, nothing]
  rfl

end

/-- The slot a grant gives, from its payload in RXBUF (R281). -/
theorem grantFrom_receivedBytes {s : State} (rapid : BitVec 6) {k : Nat} (inside : k + 6 ≤ s.totalLen) :
    grantFrom rapid ((receivedBytes s).drop k) =
      let p : BitVec 48 := s.rxbuf.read k ++ s.rxbuf.read (k + 1) ++ s.rxbuf.read (k + 2) ++ s.rxbuf.read (k + 3) ++
        s.rxbuf.read (k + 4) ++ s.rxbuf.read (k + 5)
      { populated := true, rapid := rapid, ta := p.extractLsb' 36 11, grant := p.extractLsb' 16 20,
        tc := p.extractLsb' 0 16 } := by
  have octet {b : Nat} (of : b < 6) : byteAt ((receivedBytes s).drop k) b = s.rxbuf.read (k + b) := by
    rw [byteAt, List.getD, List.getElem?_drop, receivedBytes, Memory.readN_getElem?, if_pos (by omega), Nat.zero_add]
    rfl
  simp [grantFrom, octet]

/-- Settles O49: the walk accepts exactly the grammar's blocks, and of such a block the commit fills slot j from the
j-th 6 octets behind the subheaders. -/
theorem rarParseDecodesOrEmpties : Obligations.RarParseDecodesOrEmpties := by
  intro s bytes blockOf
  have grammar {bi rapids h} :
      blockOf bi rapids h ↔ RarBlockOf s.cfg.maxRarGrants (receivedBytes s) bi rapids h := by
    rw [RarBlockOf, receivedBytes, Memory.readN_length]
  refine ⟨fun notReceiving => unless_met (mt (receiving_iff .rar s).mp notReceiving) s _,
    fun receives fits other =>
      exec_rarParse_corrupt receives fits fun bi rapids h => mt grammar.mpr (other bi rapids h),
    fun bi rapids h receives fits block =>
      ⟨_, exec_rarParse_found receives fits (grammar.mp block), rfl, commitGrants_length .., fun j beyond => ?_,
        fun j r grant inFile => ?_⟩⟩
  · rw [commitGrants_getElem?, List.getElem?_eq_none beyond]
    exact Option.map_id'
  · have inside : h + 6 * j + 6 ≤ s.totalLen := by
      have listed : j < rapids.length := (List.getElem?_eq_some_iff.mp grant).1
      rcases block with ⟨_, _, rfl, _⟩ | ⟨_, _, _, _, whole⟩
      · cases listed
      · omega
    simp only [rslotAt, List.getD, commitGrants_getElem?, grant, List.getElem?_eq_getElem inFile, Option.map_some,
      Option.getD_some, List.drop_drop, grantFrom_receivedBytes r inside, Nat.add_zero]

end Sys2Proof.Machine
end

section
/-! PROOFS. What RAR_SERIALIZE writes is a block of the RAR wire grammar whose payloads are the build's grants (44_rar
R277, 30_encoding R123, R124), so RAR_PARSE of it gives the backoff indicator and the grants back. -/

namespace Sys2Proof.Machine

/-! ### The subheaders -/

theorem grantByte_fields (e : Bool) (rapid : BitVec 6) :
    (grantByte e rapid).extractLsb' 0 6 = rapid ∧ (grantByte e rapid).getLsbD 6 = true ∧
      (grantByte e rapid).getLsbD 7 = e := by
  revert rapid
  cases e <;> decide

theorem backoffByte_fields (e : Bool) (bi : BitVec 4) :
    (backoffByte e bi).extractLsb' 0 4 = bi ∧ (backoffByte e bi).getLsbD 6 = false ∧
      (backoffByte e bi).getLsbD 7 = e := by
  revert bi
  cases e <;> decide

theorem decide_grantHeaders_ne_nil (gs : List RSlot) : decide (grantHeaders gs ≠ []) = !gs.isEmpty := by
  cases gs <;> simp [grantHeaders]

/-- The grant subheaders are those of the grammar for the grants' RAPIDs. -/
theorem rarHeadersOf_grantHeaders (gs : List RSlot) : RarHeadersOf none (gs.map RSlot.rapid) (grantHeaders gs) := by
  induction gs with
  | nil => exact rarHeadersOf_nil_iff.mpr rfl
  | cons g gs ih =>
    obtain ⟨rapid, grant, more⟩ := grantByte_fields (!gs.isEmpty) g.rapid
    exact rarHeadersOf_grant_iff.mpr
      ⟨_, congrArg (· :: _) rapid.symm, grant, more.trans (decide_grantHeaders_ne_nil gs).symm, ih⟩

/-- The backoff indicator of a build, if it has one. -/
def backoff? (s : State) : Option (BitVec 4) := if s.hasBi then some s.bi else none

theorem backoff?_isSome (s : State) : (backoff? s).isSome = s.hasBi := by
  unfold backoff?
  cases s.hasBi <;> rfl

/-- BI is 0 where there is no backoff indicator (10_state R40). -/
theorem backoff?_getD {s : State} (noBackoff : s.hasBi = false → s.bi = 0) : (backoff? s).getD 0 = s.bi := by
  unfold backoff?
  cases backoff : s.hasBi with
  | false => exact (noBackoff backoff).symm
  | true => rfl

/-- SH is the subheaders of the grammar for the build's backoff indicator and RAPIDs. -/
theorem rarHeadersOf_rarHeaders (s : State) :
    RarHeadersOf (backoff? s) ((rslotsInUse s).map RSlot.rapid) (rarHeaders s) := by
  have grants := rarHeadersOf_grantHeaders (rslotsInUse s)
  unfold backoff? rarHeaders
  split
  · obtain ⟨bi, backoff, more⟩ := backoffByte_fields (!(rslotsInUse s).isEmpty) s.bi
    exact rarHeadersOf_backoff_iff.mpr ⟨bi, backoff, more.trans (decide_grantHeaders_ne_nil _).symm, grants⟩
  · exact grants

/-! ### The payloads -/

/-- Six octets joined are the value they are of (20_memory R74). -/
theorem join_octets_six (v : BitVec 48) (rest : List Byte) :
    byteAt (octets v 6 ++ rest) 0 ++ byteAt (octets v 6 ++ rest) 1 ++ byteAt (octets v 6 ++ rest) 2 ++
      byteAt (octets v 6 ++ rest) 3 ++ byteAt (octets v 6 ++ rest) 4 ++ byteAt (octets v 6 ++ rest) 5 = v := by
  change v.extractLsb' 40 8 ++ v.extractLsb' 32 8 ++ v.extractLsb' 24 8 ++ v.extractLsb' 16 8 ++ v.extractLsb' 8 8 ++
    v.extractLsb' 0 8 = v
  rw [append_octets_four v 16, append_octet v 8, append_octet v 0, BitVec.extractLsb'_eq_self]

theorem grantValue_fields (g : RSlot) :
    (grantValue g).extractLsb' 36 11 = g.ta ∧ (grantValue g).extractLsb' 16 20 = g.grant ∧
      (grantValue g).extractLsb' 0 16 = g.tc :=
  ⟨(BitVec.extractLsb'_append_eq_of_le (by decide)).trans ((BitVec.extractLsb'_append_eq_of_le (by decide)).trans
      BitVec.extractLsb'_append_eq_right),
    (BitVec.extractLsb'_append_eq_of_le (by decide)).trans BitVec.extractLsb'_append_eq_right,
    BitVec.extractLsb'_append_eq_right⟩

/-- A populated slot is what its RAPID and its payload give (R281). -/
theorem grantFrom_octets {g : RSlot} (populated : g.populated = true) (rest : List Byte) :
    grantFrom g.rapid (octets (grantValue g) 6 ++ rest) = g := by
  obtain ⟨ta, grant, tc⟩ := grantValue_fields g
  rw [grantFrom, join_octets_six, ta, grant, tc, ← populated]

/-- Committing the payloads of populated slots gives the slots back. -/
theorem take_commitGrants_grantPayloads {gs old : List RSlot} (populated : ∀ g ∈ gs, g.populated = true)
    (room : gs.length ≤ old.length) (rest : List Byte) :
    (commitGrants (gs.map RSlot.rapid) (grantPayloads gs ++ rest) old).take gs.length = gs := by
  induction gs generalizing old with
  | nil => rfl
  | cons g gs ih =>
    obtain ⟨first, later⟩ := List.forall_mem_cons.mp populated
    cases old with
    | nil => cases room
    | cons x old =>
      have ends := ih later (Nat.le_of_succ_le_succ room)
      have bytes : grantPayloads (g :: gs) ++ rest = octets (grantValue g) 6 ++ (grantPayloads gs ++ rest) := by
        simp [grantPayloads]
      rw [bytes, List.map_cons, commitGrants, grantFrom_octets first]
      exact congrArg (g :: ·) ends

/-! ### RAR_SERIALIZE, the copy, RAR_INIT_RX and RAR_PARSE -/

/-- A length that fits the buffers fits a register (00_scope R7, R9). -/
theorem toNat_word_of_fits {c : Config} (ok : c.ok = true) {n : Nat} (fits : n ≤ c.maxTbBytes) :
    (word n).toNat = n := by
  have bound : c.maxTbBytes ≤ 2 ^ 24 := by
    simp only [Config.ok, Bool.and_eq_true, decide_eq_true_eq] at ok
    omega
  exact (BitVec.toNat_ofNat ..).trans (Nat.mod_eq_of_lt (by omega))

/-- RAR_INIT_RX of a length that fits the buffers (R280). -/
theorem exec_rarInitRx {s : State} (ok : s.cfg.ok = true) {n : Nat} (fits : n ≤ s.cfg.maxTbBytes) :
    exec (.rarInitRx (word n)) s = .next ((s.initContainer .rar .rxReady false n 0).withCode .ok) := by
  have size := toNat_word_of_fits ok fits
  rcases initCommand_cases .rar .rxReady false (word n) 0 s with ⟨long, _⟩ | ⟨_, starts⟩
  · omega
  · rwa [size] at starts

/-- A RAR_SERIALIZE that ends with OK had its slots populated and an entry to write (R277, R278). -/
theorem rarSerialize_ok {s t : State} (build : RarBuild s) (ran : exec .rarSerialize s = .next t)
    (ok : t.code = .ok) : ¬ LastUnpopulated s ∧ (s.hasBi = true ∨ s.rcount ≠ 0) := by
  constructor
  · intro unpopulated
    cases (rarSerialize_unpopulated build unpopulated).symm.trans ran
    cases ok
  · by_contra bare
    obtain ⟨noBackoff, noGrant⟩ : s.hasBi = false ∧ s.rcount = 0 := by simpa using bare
    cases (rarSerialize_bare build noBackoff noGrant).symm.trans ran
    cases ok

section
variable {s : State} (h : RunInv s) (build : RarBuild s) (populated : ¬ LastUnpopulated s)
  (content : s.hasBi = true ∨ s.rcount ≠ 0)
include h build populated content

/-- What RAR_SERIALIZE leaves of a run's build: its parameters and slots, and its block in TXBUF (R277). -/
theorem RunInv.rarSerialized {t : State} (ran : exec .rarSerialize s = .next t) :
    t.cfg = s.cfg ∧ t.rslots = s.rslots ∧ t.txbuf.readN 0 s.totalLen = rarBlockBytes s := by
  have ⟨_, ⟨⟨canonical, _⟩, _⟩, ⟨total, _⟩, _⟩ := h
  have spent := h.length_rarBlock build populated
  have whole := length_rarBlockBytes (s := s) (by omega)
  have written := Memory.writtenAt_writeN 0 (rarBlockBytes s) canonical
  cases (exec_rarSerialize build populated content (by omega) total).symm.trans ran
  exact ⟨rfl, rfl, whole ▸ readN_of_writtenAt written⟩

/-- The block of a run's build is a block of the grammar. -/
theorem RunInv.rarBlockOf_rarBlockBytes :
    RarBlockOf s.cfg.maxRarGrants (rarBlockBytes s) (backoff? s) ((rslotsInUse s).map RSlot.rapid)
      (rarHeaders s).length := by
  have ⟨⟨_, _, files⟩, _, ⟨_, _, _, fits, _⟩, _⟩ := h
  have spent := h.length_rarBlock build populated
  have grants := length_rslotsInUse (files.symm ▸ fits)
  have entries : 1 ≤ (rarHeaders s).length := by
    rw [length_rarHeaders, grants, biCount]
    rcases content with backoff | some
    · simp [backoff]
    · omega
  have whole := length_rarBlockBytes (s := s) (by omega)
  have headers : (rarBlockBytes s).take (rarHeaders s).length = rarHeaders s := by
    rw [rarBlockBytes, List.append_assoc, List.take_left]
  rw [length_grantPayloads] at spent
  refine .inr ⟨entries, by omega, headers.symm ▸ rarHeadersOf_rarHeaders s, by simpa [grants] using fits, ?_⟩
  rw [List.length_map]
  omega

/-- RAR_INIT_RX and RAR_PARSE of the block in a state with the build's slot file give the build's backoff indicator and
grants. -/
theorem RunInv.rarParses_back {u : State} (cfg : u.cfg = s.cfg) (rslots : u.rslots = s.rslots)
    (block : u.rxbuf.readN 0 s.totalLen = rarBlockBytes s) :
    ∃ v, thenRun (exec (.rarInitRx (word s.totalLen)) u) (exec .rarParse) = .next v ∧
      v.code = .ok ∧ v.hasBi = s.hasBi ∧ v.bi = s.bi ∧ v.rcount = s.rcount ∧ rslotsInUse v = rslotsInUse s := by
  have ⟨⟨ok, _, files⟩, _, ⟨total, _, _, fits, _⟩, _, ⟨_, _, noBackoff⟩, _⟩ := h
  have grants := length_rslotsInUse (files.symm ▸ fits)
  have found := h.rarBlockOf_rarBlockBytes build populated content
  rw [← block] at found
  rw [← cfg] at found ok total
  have parse := exec_rarParse_found (s := (u.initContainer .rar .rxReady false s.totalLen 0).withCode .ok) rfl total
    found
  rw [exec_rarInitRx ok total]
  refine ⟨_, parse, rfl, backoff?_isSome s, backoff?_getD noBackoff, (List.length_map _).trans grants, ?_⟩
  have payloads : (u.rxbuf.readN 0 s.totalLen).drop (rarHeaders s).length =
      grantPayloads (rslotsInUse s) ++ List.replicate (rarZeros s) 0#8 := by
    rw [block, rarBlockBytes, List.append_assoc, List.drop_left]
  change (commitGrants _ ((u.rxbuf.readN 0 s.totalLen).drop _) u.rslots).take _ = _
  rw [payloads, rslots, List.length_map]
  exact take_commitGrants_grantPayloads (h.grants_populated build populated) (by omega) _

end

/-- Settles O52: RAR_PARSE finds the build's subheaders in the block RAR_SERIALIZE wrote, and the slots it commits from
the payloads are the build's. -/
theorem rarRoundTrip : Obligations.RarRoundTrip := by
  intro s t m h build ran ok copied
  obtain ⟨populated, content⟩ := rarSerialize_ok build ran ok
  obtain ⟨cfg, rslots, written⟩ := h.rarSerialized build populated content ran
  have block : m.readN 0 s.totalLen = rarBlockBytes s :=
    (m.readN_congr t.txbuf 0 s.totalLen fun j _ inside => copied j (by omega)).trans written
  exact h.rarParses_back build populated content cfg rslots (u := { t with rxbuf := m }) block

end Sys2Proof.Machine
end

section
/-! PROOFS. How a command ends (60_exceptions R302, R304), read off the changes a command can make: its code is one its
row lists, and a code other than OK leaves everything else as it was, with the three exceptions of R302. From a state of
a run no serialize fails (41_container_tx R172, R177; 44_rar R270). -/

namespace Sys2Proof.Machine

/-- Every command can succeed. -/
theorem ok_mem_endCodes (i : Instr) : .ok ∈ endCodes i := by
  cases i <;> simp [endCodes]

namespace Change

section
variable {s u : State} {i : Instr}

theorem code_listed {c : Status} (h : Change s i c u) : c ∈ endCodes i := by
  cases h with
  | failed listed => exact listed
  | sourceError | parseCorrupt | rarParseCorrupt => simp [endCodes]
  | notSerialized serializes => rcases serializes with ⟨_, rfl⟩ | ⟨_, rfl⟩ <;> simp [endCodes]
  | _ => exact ok_mem_endCodes _

/-- Only OK and the codes of the three exceptions come with a change of the state (R302). -/
theorem eq_of_plain_code {c : Status} (h : Change s i c u)
    (plain : c ∉ [.ok, .errCorrupt, .errSerialize, .errSource]) : u = s := by
  cases h with
  | failed => rfl
  | _ => simp at plain

theorem of_errCorrupt (h : Change s i .errCorrupt u) :
    (i = .parse ∧ u = { s with count := 0, corrupt := true, mode := .rxParsed, iter := 0, cur := none }) ∨
    (i = .rarParse ∧ u = { s with rcount := 0, hasBi := false, bi := 0, corrupt := true, mode := .rxParsed, iter := 0,
                                  cur := none }) := by
  cases h with
  | failed _ plain => simp at plain
  | parseCorrupt => exact .inl ⟨rfl, rfl⟩
  | rarParseCorrupt => exact .inr ⟨rfl, rfl⟩

theorem of_errSerialize (h : Change s i .errSerialize u) :
    (i = .serialize ∨ i = .rarSerialize) ∧ u = { s with mode := .idle } := by
  cases h with
  | failed _ plain => simp at plain
  | notSerialized serializes => exact ⟨serializes.imp And.right And.right, rfl⟩

theorem of_errSource (h : Change s i .errSource u) :
    (∃ lcid n, i = .setSdu lcid n) ∧ u = { s with sdubuf := u.sdubuf, source := u.source, draws := u.draws } := by
  cases h with
  | failed _ plain => simp at plain
  | sourceError lcid req => exact ⟨⟨lcid, req, rfl⟩, rfl⟩

end

end Change

/-- A command that ends with a code other than OK makes a change of that code and writes no RESULT register (R302). -/
theorem exec_failed {s t : State} {i : Instr} {c : Status} (ran : exec i s = .next t) (code : t.code = c)
    (failed : c ≠ .ok) : ∃ u, Change s i c u ∧ t = u.withCode c := by
  obtain ⟨_, _, u, change, noResults, rfl⟩ := exec_change ran
  cases code
  cases noResults failed
  exact ⟨u, change, rfl⟩

/-! ### ERR_SERIALIZE is unreachable -/

section
variable {s t : State} (h : RunInv s)
include h

/-- The block of a run's build has TOTAL_LEN bytes (R172), so the check of R177 passes. -/
theorem RunInv.serialize_code_ne (ran : exec .serialize s = .next t) : t.code ≠ .errSerialize := by
  have ⟨_, ⟨txbuf, _⟩, _⟩ := h
  obtain ⟨notBuilding, unpopulated, _, writes⟩ := serializeWritesTheBlock s
  by_cases build : GeneralBuild s
  · by_cases populated : AllPopulated s
    · obtain ⟨_, accounting⟩ := transmitAccounting s h build
      obtain ⟨staged, whole, fits⟩ := accounting populated
      obtain ⟨_, _, ends⟩ := writes build populated staged whole fits txbuf
      cases ends.symm.trans ran
      nofun
    · cases (unpopulated build populated).symm.trans ran
      nofun
  · cases (notBuilding build).symm.trans ran
    nofun

/-- The subheaders and payloads of a run's RAR build fit TOTAL_LEN (R270), so the check of R277 passes. -/
theorem RunInv.rarSerialize_code_ne (ran : exec .rarSerialize s = .next t) : t.code ≠ .errSerialize := by
  have ⟨_, _, ⟨total, _⟩, _⟩ := h
  by_cases build : RarBuild s
  · by_cases unpopulated : LastUnpopulated s
    · cases (rarSerialize_unpopulated build unpopulated).symm.trans ran
      nofun
    · by_cases content : s.hasBi = true ∨ s.rcount ≠ 0
      · have spent := h.length_rarBlock build unpopulated
        cases (exec_rarSerialize build unpopulated content (by omega) total).symm.trans ran
        nofun
      · obtain ⟨noBackoff, noGrant⟩ : s.hasBi = false ∧ s.rcount = 0 := by simpa using content
        cases (rarSerialize_bare build noBackoff noGrant).symm.trans ran
        nofun
  · cases (unless_buildingRar build _).symm.trans ran
    nofun

end

/-- Settles O53: the code is that of the command's change, and ERR_SERIALIZE is that of a serialize, which from a state
of a run ends with another code. -/
theorem commandsEndWithListedCodes : Obligations.CommandsEndWithListedCodes := by
  intro i s t ran
  constructor
  · obtain ⟨c, xs, u, change, _, rfl⟩ := exec_change ran
    exact change.code_listed
  · intro h code
    obtain ⟨_, change, _⟩ := exec_failed ran code nofun
    obtain ⟨rfl | rfl, _⟩ := change.of_errSerialize
    · exact h.serialize_code_ne ran code
    · exact h.rarSerialize_code_ne ran code

/-- Settles O54: a failing command leaves its change with STATUS.CODE written, and the code says which change it is. -/
theorem failuresChangeOnlyStatus : Obligations.FailuresChangeOnlyStatus := by
  intro i s t ran
  refine ⟨fun code => ?_, fun code => ?_, fun code => ?_, fun code => ?_⟩
  · have plain : t.code ∉ [.ok, .errCorrupt, .errSerialize, .errSource] := by
      rcases code with code | code | code | code | code <;> simp [code]
    obtain ⟨u, change, ends⟩ := exec_failed ran rfl fun ok => plain (by simp [ok])
    rwa [change.eq_of_plain_code plain] at ends
  · obtain ⟨_, change, ends⟩ := exec_failed ran code nofun
    rcases change.of_errCorrupt with ⟨rfl, rfl⟩ | ⟨rfl, rfl⟩ <;> subst ends
    · exact ⟨.inl rfl, rfl, fun _ => ⟨rfl, rfl, rfl, rfl⟩, nofun⟩
    · exact ⟨.inr rfl, rfl, nofun, fun _ => ⟨rfl, rfl, rfl, rfl⟩⟩
  · obtain ⟨_, change, ends⟩ := exec_failed ran code nofun
    obtain ⟨serializes, rfl⟩ := change.of_errSerialize
    exact ⟨serializes, ends⟩
  · obtain ⟨_, change, ends⟩ := exec_failed ran code nofun
    obtain ⟨setsSdu, only⟩ := change.of_errSource
    subst ends
    exact ⟨setsSdu, congrArg (State.withCode · .errSource) only, fun _ => change.sdubuf_read_below⟩

end Sys2Proof.Machine
end

section
/-! PROOFS. Reset (70_reset_and_hazards R330): the host's reset access gives every piece of state its value of the reset
table, or the drawn one where the table names none, and the state it leaves meets the invariant. -/

namespace Sys2Proof.Machine

/-- Settles O12: the reset access leaves the block's state `resetBlock`, whose files and buffers hold the draw. -/
theorem resetGivesTheTable : Obligations.ResetGivesTheTable := by
  intro s d
  have slots : ∀ k < s.cfg.maxSubpdus + 2, (s.resetBlock d).slots[k]? = some (d.slots.getD k Slot.zero) :=
    fun k inFile => drawnFile_getElem? _ k _ _ inFile
  have rslots : ∀ k < s.cfg.maxRarGrants, (s.resetBlock d).rslots[k]? = some (d.rslots.getD k RSlot.zero) :=
    fun k inFile => drawnFile_getElem? _ k _ _ inFile
  have buffer : ∀ drawn i, i < s.cfg.maxTbBytes → (drawnBuffer s.cfg drawn).read i = drawn.getD i 0 :=
    drawnBuffer_read s.cfg
  exact ⟨s.resetBlock d, rfl, rfl, rfl, rfl, rfl, rfl, rfl, rfl, rfl, rfl, rfl, rfl, rfl, rfl, rfl, rfl, rfl, rfl, rfl,
    rfl, rfl, rfl, rfl, slots, rslots,
    fun i inside => ⟨buffer _ i inside, buffer _ i inside, buffer _ i inside⟩⟩

/-- Settles O13: reset under legal parameters meets the invariant whatever is drawn, and those of `State.reset` are
legal. -/
theorem resetMeetsInvariant : Obligations.ResetMeetsInvariant :=
  ⟨fun _ d ok => runInv_resetOf ok d, runInv_resetOf (by decide) .zero⟩

end Sys2Proof.Machine
end

section
/-! PROOFS. In IDLE every command but the four INITs fails and changes nothing (70_reset_and_hazards R333): its first
check asks for a build, a received block or a container that is not idle. -/

namespace Sys2Proof.Machine

/-- The decoder lets only the three formats through, and each has its kind (30_encoding R93, 42_control_elements
R202). -/
theorem ceCommand_setBsr_of_wellFormed {fmt : BitVec 2} {o0 o1 o2 o3 : Word}
    (legal : WellFormed (.setBsr fmt o0 o1 o2 o3)) :
    ∃ kind payload, ceCommand (.setBsr fmt o0 o1 o2 o3) = some (kind, payload) := by
  have formats : ∀ f : BitVec 2, (f != 3) = true → (bsrKind f).isSome = true := by decide
  obtain ⟨kind, format⟩ := Option.isSome_iff_exists.mp (formats fmt legal)
  exact ⟨kind, _, by rw [ceCommand, format]; rfl⟩

section
variable {s : State} (idle : s.mode = .idle)
include idle

theorem not_txBuild_of_idle {P : Prop} : ¬ (P ∧ s.mode = .txBuild) := fun build => nomatch idle.symm.trans build.2

theorem not_rxParsed_of_idle {P : Prop} : ¬ (P ∧ s.mode = .rxParsed) := fun parsed => nomatch idle.symm.trans parsed.2

theorem not_receiving_of_idle (ct : CType) : ¬ receiving ct s = true := by
  simp [receiving_iff, idle]

theorem setCe_idle {i : Instr} {kind : Kind} {payload : List Byte} (sets : ceCommand i = some (kind, payload)) :
    OnlyEndsWith i s .errState :=
  (exec_ceCommand sets s).trans (unless_building (not_txBuild_of_idle idle) _)

/-- In IDLE no command passes its first check but the INITs. -/
theorem exec_idle {i : Instr} (notInit : isInit i = false) (legal : WellFormed i) : OnlyEndsWith i s .errState := by
  have noBuild : ¬ GeneralBuild s := not_txBuild_of_idle idle
  have noRarBuild : ¬ RarBuild s := not_txBuild_of_idle idle
  have notParsed : ¬ GeneralParsed s := not_rxParsed_of_idle idle
  have notRarParsed : ¬ RarParsed s := not_rxParsed_of_idle idle
  cases i with
  | initTx | initRx | rarInitTx | rarInitRx => cases notInit
  | append | removeLast | serialize | setSdu => exact unless_building noBuild _
  | setBsr fmt o0 o1 o2 o3 =>
    obtain ⟨kind, payload, sets⟩ := ceCommand_setBsr_of_wellFormed legal
    exact setCe_idle idle sets
  | setPhr | setTa | setCrid | setCrnti | setScell => exact setCe_idle idle rfl
  | iterNext => exact unless_parsed notParsed _
  | getSdu | getBsr | getPhr | getTa | getCrid | getCrnti | getScell | getMchSched =>
    exact (getterChecks rfl s).1 notParsed
  | parse | rarParse => exact unless_met (not_receiving_of_idle idle _) s _
  | rarAppend | rarRemoveLast | rarSetBackoff | rarSetGrant | rarSerialize => exact unless_buildingRar noRarBuild _
  | rarIterNext | rarGetGrant => exact unless_parsedRar notRarParsed _
  | rarGetBackoff => exact rarGetBackoff_noContainer (.inr idle)

end

/-- Settles O16: the words of a command either decode to a legal one, which runs, or only set ERR_ILLEGAL. -/
theorem idleRefusesAllButInit : Obligations.IdleRefusesAllButInit := by
  refine ⟨fun i s idle notInit legal => exec_idle idle notInit legal, fun w0 ops s _ idle => ?_⟩
  rcases runCommand_cases (w0 :: ops) s with ⟨i, decodes, runs⟩ | ⟨why, refused, ends⟩
  · cases init : isInit i with
    | true => exact .inl ⟨i, decodes, init⟩
    | false =>
      have ⟨legal, _⟩ := legalWordsHaveOneCommand _ i decodes
      exact .inr (.inl ⟨⟨i, decodes⟩, runs.trans (exec_idle idle init legal)⟩)
  · exact .inr (.inr ⟨⟨why, refused⟩, ends⟩)

end Sys2Proof.Machine
end

section
/-! PROOFS. PAD_POLICY has no effect (41_container_tx R162, 70_reset_and_hazards R347): a command does to a state with
another PAD_POLICY what it does to the state, and keeps that PAD_POLICY unless it is an INIT that succeeds. A command is
checks, which do not read PAD_POLICY, and the ends they lead to, so the change of PAD_POLICY moves through the checks and
meets each end. -/

namespace Sys2Proof.Machine

/-- `s` with PAD_POLICY = p. -/
def withPadPolicy (p : Bool) (s : State) : State := { s with padPolicy := p }

@[simp] theorem withPadPolicy_cfg (p : Bool) (s : State) : (withPadPolicy p s).cfg = s.cfg := rfl

@[simp] theorem withPadPolicy_cur (p : Bool) (s : State) : (withPadPolicy p s).cur = s.cur := rfl

@[simp] theorem withPadPolicy_source (p : Bool) (s : State) : (withPadPolicy p s).source = s.source := rfl

theorem mapNext_orFault {α : Type} (f : State → State) (r : Option α) (k : α → Result) :
    mapNext f (orFault r k) = orFault r fun x => mapNext f (k x) := by
  cases r <;> rfl

section
variable (p : Bool) (s : State)

/-! ### The ends of a command -/

theorem mapNext_fail (c : Status) : mapNext (withPadPolicy p) (fail c s) = fail c (withPadPolicy p s) := rfl

theorem mapNext_done : mapNext (withPadPolicy p) (done s) = done (withPadPolicy p s) := rfl

theorem mapNext_doneWith (xs : List Word) :
    mapNext (withPadPolicy p) (doneWith xs s) = doneWith xs (withPadPolicy p s) := rfl

/-! ### The operations that commands share -/

theorem setCe_withPadPolicy (kind : Kind) (payload : List Byte) :
    setCe kind payload (withPadPolicy p s) = mapNext (withPadPolicy p) (setCe kind payload s) := by
  simp only [setCe, apply_ite (mapNext _), mapNext_fail, withPadPolicy_cfg]
  cases kindRow s.cfg kind with
  | none => rfl
  | some row =>
    simp only [reserveCe, apply_ite (mapNext _), mapNext_fail, mapNext_done]
    rfl

/-- A GET_ command whose reading of the entry does not go by PAD_POLICY. -/
theorem withEntry_withPadPolicy {decodes : Kind → Bool} {k k' : Slot → Result}
    (reads : ∀ e, k' e = mapNext (withPadPolicy p) (k e)) :
    withEntry decodes (withPadPolicy p s) k' = mapNext (withPadPolicy p) (withEntry decodes s k) := by
  simp only [withEntry, apply_ite (mapNext _), mapNext_fail, withPadPolicy_cur]
  cases s.cur with
  | none => rfl
  | some c =>
    simp only [apply_ite (mapNext _), mapNext_fail, ← reads]
    rfl

theorem commitBlock_withPadPolicy (out : List Byte) (xs : List Word) :
    commitBlock out xs (withPadPolicy p s) = mapNext (withPadPolicy p) (commitBlock out xs s) := by
  simp only [commitBlock, apply_ite (mapNext _), mapNext_orFault, mapNext_fail, mapNext_doneWith]
  rfl

theorem sourceRead_withPadPolicy (lcid : BitVec 5) (mx : Nat) :
    sourceRead lcid mx (withPadPolicy p s) =
      ((sourceRead lcid mx s).1, withPadPolicy p (sourceRead lcid mx s).2) := by
  simp only [sourceRead, withPadPolicy_source]
  cases s.source <;> rfl

theorem takeAnswer_withPadPolicy (lcid : BitVec 5) (mx : Nat) (a : SourceAnswer) :
    takeAnswer lcid mx a (withPadPolicy p s) = mapNext (withPadPolicy p) (takeAnswer lcid mx a s) := by
  unfold takeAnswer
  cases a.answer with
  | none => rfl
  | some d =>
    simp only [sourceFailed, commitSdu, apply_ite (mapNext _), mapNext_orFault, mapNext_fail, mapNext_doneWith]
    rfl

/-! ### The commands -/

theorem setSdu_withPadPolicy (lcid : BitVec 5) (req : Word) :
    execSetSdu lcid req (withPadPolicy p s) = mapNext (withPadPolicy p) (execSetSdu lcid req s) := by
  simp only [execSetSdu, apply_ite (mapNext _), mapNext_fail, mapNext_doneWith, sourceRead_withPadPolicy,
    takeAnswer_withPadPolicy]
  rfl

theorem parse_withPadPolicy : execParse (withPadPolicy p s) = mapNext (withPadPolicy p) (execParse s) := by
  simp only [execParse, apply_ite (mapNext _), mapNext_orFault, mapNext_fail, withPadPolicy_cfg]
  refine if_congr .rfl rfl (congrArg (orFault _) (funext fun bytes => ?_))
  cases parseBlock s.cfg bytes <;> rfl

theorem rarParse_withPadPolicy : execRarParse (withPadPolicy p s) = mapNext (withPadPolicy p) (execRarParse s) := by
  simp only [execRarParse, apply_ite (mapNext _), mapNext_orFault, mapNext_fail, withPadPolicy_cfg]
  refine if_congr .rfl rfl (congrArg (orFault _) (funext fun bytes => ?_))
  cases parseRar s.cfg.maxRarGrants bytes <;> rfl

theorem rarGetGrant_withPadPolicy :
    execRarGetGrant (withPadPolicy p s) = mapNext (withPadPolicy p) (execRarGetGrant s) := by
  simp only [execRarGetGrant, apply_ite (mapNext _), mapNext_fail, withPadPolicy_cur]
  cases s.cur with
  | none => rfl
  | some c =>
    simp only [apply_ite (mapNext _), mapNext_fail, mapNext_doneWith]
    rfl

/-- A command but the INITs does the same whatever PAD_POLICY holds, and keeps it. -/
theorem exec_withPadPolicy {i : Instr} (notInit : isInit i = false) :
    exec i (withPadPolicy p s) = mapNext (withPadPolicy p) (exec i s) := by
  cases i with
  | initTx | initRx | rarInitTx | rarInitRx => cases notInit
  | append | removeLast | iterNext | rarAppend | rarRemoveLast | rarSetBackoff | rarSetGrant | rarIterNext
  | rarGetBackoff =>
    simp only [exec, execAppend, execRemoveLast, execIterNext, execRarAppend, execRarRemoveLast, execRarSetBackoff,
      execRarSetGrant, execRarIterNext, execRarGetBackoff, apply_ite (mapNext _), mapNext_fail, mapNext_done,
      mapNext_doneWith]
    rfl
  | setSdu lcid req => exact setSdu_withPadPolicy p s lcid req
  | setBsr fmt o0 o1 o2 o3 =>
    simp only [exec, execSetBsr]
    cases bsrKind fmt with
    | none => rfl
    | some kind => exact setCe_withPadPolicy p s kind _
  | setPhr | setTa | setCrid | setCrnti | setScell => exact setCe_withPadPolicy p s _ _
  | serialize | rarSerialize =>
    simp only [exec, execSerialize, execRarSerialize, apply_ite (mapNext _), mapNext_orFault, mapNext_fail,
      ← commitBlock_withPadPolicy]
    rfl
  | parse => exact parse_withPadPolicy p s
  | rarParse => exact rarParse_withPadPolicy p s
  | getSdu | getBsr | getPhr | getTa | getCrid | getCrnti =>
    simp only [exec, getSdu_eq_withEntry, execGetBsr, execGetPhr, execGetTa, execGetCrid, execGetCrnti]
    exact withEntry_withPadPolicy p s fun _ => rfl
  | getScell =>
    simp only [exec, execGetScell]
    refine withEntry_withPadPolicy p s fun e => ?_
    simp only [apply_ite (mapNext _), mapNext_doneWith]
  | getMchSched k =>
    simp only [exec, execGetMchSched]
    refine withEntry_withPadPolicy p s fun e => ?_
    simp only [apply_ite (mapNext _), mapNext_orFault, mapNext_fail, mapNext_doneWith]
    rfl
  | rarGetGrant => exact rarGetGrant_withPadPolicy p s

/-- An INIT that succeeds writes PAD_POLICY; one that fails keeps it. -/
theorem initCommand_withPadPolicy (ct : CType) (m : Mode) (pad : Bool) (n : Word) (rem : Nat) :
    initCommand ct m pad n rem (withPadPolicy p s) =
      mapNext (fun t => if t.code = .ok then t else withPadPolicy p t) (initCommand ct m pad n rem s) := by
  simp only [initCommand, apply_ite (mapNext _)]
  rfl

/-- An INIT's operand is what PAD_POLICY holds after it, and nothing else. -/
theorem initCommand_padPolicy (ct : CType) (m : Mode) (pad pad' : Bool) (n : Word) (rem : Nat) :
    mapNext (withPadPolicy p) (initCommand ct m pad n rem s) =
      mapNext (withPadPolicy p) (initCommand ct m pad' n rem s) := by
  simp only [initCommand, apply_ite (mapNext _)]
  rfl

end

/-- Settles O57: only an INIT writes PAD_POLICY, and no command reads it. -/
theorem padPolicyHasNoEffect : Obligations.PadPolicyHasNoEffect := by
  refine ⟨fun i s p => ?_, fun p q n s => initCommand_padPolicy false s .general .txBuild p q n n.toNat⟩
  cases init : isInit i with
  | false => exact exec_withPadPolicy p s init
  | true =>
    cases i with
    | initTx | initRx | rarInitTx | rarInitRx =>
      simp only [Bool.true_and, decide_eq_true_eq]
      exact initCommand_withPadPolicy p s ..
    | _ => cases init

end Sys2Proof.Machine
end

section
/-! PROOFS. The encoding vectors of the spec (95_test_vectors B3): each command encodes to the words B3 lists for it, so by
the round trip those words decode to it. -/

namespace Sys2Proof.Machine

/-- The words a well-formed command encodes to decode to it. -/
theorem decode_of_encode_eq {i : Instr} {words : List Word} (wf : WellFormed i) (encodes : encode i = words) :
    decode words = .ok i := by
  rw [← encodes, decode_encode wf]

/-- Settles O3: the words are the encodings of the commands, by the opcode map, and the decoder inverts the encoder. -/
theorem specWordsDecode : Obligations.SpecWordsDecode := by
  refine ⟨?_, ?_, ?_, ?_, ?_, ?_, ?_, ?_⟩ <;> exact decode_of_encode_eq rfl rfl

end Sys2Proof.Machine
end
